-- ==== Sys2Proof/Word.lean ====
section
/-! DEFINITION. The widths of the CHIP-8 CORE (spec/00_scope.md, section 5): names for the bit vectors the spec uses. -/

namespace Sys2Proof

/-- An 8-bit register, timer or memory location (10_state.md R10, R15, R16, R21). -/
abbrev Byte := BitVec 8

/-- A 16-bit instruction word, `pc`, `I` or call-stack entry (10_state.md R12, R13, R14; 30_encoding.md R47). -/
abbrev Word := BitVec 16

/-- A 4-bit field: a register index `X` or `Y`, the nibble `N`, a key index (30_encoding.md R47). -/
abbrev Nibble := BitVec 4

/-- The 12-bit address field `NNN` (30_encoding.md R47). -/
abbrev Addr := BitVec 12

end Sys2Proof
end

