-- ==== Sys2Proof/Syntax.lean ====
section
/-! DEFINITION. The instructions: one constructor for each row of spec/opcode_table.json (35 instructions and the catch-all
row UNDEF; spec/30_encoding.md R57), in the table's order. -/

namespace Sys2Proof

/-- A decoded instruction. Register operands are the 4-bit indices `x`, `y`; `nn` is a byte, `nnn` a 12-bit address,
`n` a nibble (30_encoding.md R47, R48, R60). `seReg` and `sneReg` keep the low nibble the instruction ignores (R55) and
`undef` keeps its whole word, so that no bit of a word is lost (log 23). -/
inductive Instr where
  /-- `00E0` CLS (43_display.md R110). -/
  | cls
  /-- `00EE` RET (40_control_flow.md R67). -/
  | ret
  /-- `0NNN` SYS NNN, the rest of family 0 (40_control_flow.md R65). -/
  | sys (nnn : Addr)
  /-- `1NNN` JP NNN (R68). -/
  | jp (nnn : Addr)
  /-- `2NNN` CALL NNN (R69). -/
  | call (nnn : Addr)
  /-- `3XNN` SE Vx,NN (R70). -/
  | seImm (x : Nibble) (nn : Byte)
  /-- `4XNN` SNE Vx,NN (R71). -/
  | sneImm (x : Nibble) (nn : Byte)
  /-- `5XYN` SE Vx,Vy, `N` ignored (R72). -/
  | seReg (x y n : Nibble)
  /-- `6XNN` LD Vx,NN (41_alu.md R81). -/
  | ldImm (x : Nibble) (nn : Byte)
  /-- `7XNN` ADD Vx,NN (R82). -/
  | addImm (x : Nibble) (nn : Byte)
  /-- `8XY0` LD Vx,Vy (R83). -/
  | ldReg (x y : Nibble)
  /-- `8XY1` OR Vx,Vy (R84). -/
  | orReg (x y : Nibble)
  /-- `8XY2` AND Vx,Vy (R85). -/
  | andReg (x y : Nibble)
  /-- `8XY3` XOR Vx,Vy (R86). -/
  | xorReg (x y : Nibble)
  /-- `8XY4` ADD Vx,Vy (R87). -/
  | addReg (x y : Nibble)
  /-- `8XY5` SUB Vx,Vy (R88). -/
  | subReg (x y : Nibble)
  /-- `8XY6` SHR Vx,Vy (R89). -/
  | shrReg (x y : Nibble)
  /-- `8XY7` SUBN Vx,Vy (R90). -/
  | subnReg (x y : Nibble)
  /-- `8XYE` SHL Vx,Vy (R91). -/
  | shlReg (x y : Nibble)
  /-- `9XYN` SNE Vx,Vy, `N` ignored (40_control_flow.md R73). -/
  | sneReg (x y n : Nibble)
  /-- `ANNN` LD I,NNN (42_index_memory.md R100). -/
  | ldI (nnn : Addr)
  /-- `BNNN` JP V0,NNN (40_control_flow.md R74). -/
  | jpV0 (nnn : Addr)
  /-- `CXNN` RND Vx,NN (41_alu.md R92). -/
  | rnd (x : Nibble) (nn : Byte)
  /-- `DXYN` DRW Vx,Vy,N (43_display.md R111). -/
  | drw (x y n : Nibble)
  /-- `EX9E` SKP Vx (44_keypad_timers.md R120). -/
  | skp (x : Nibble)
  /-- `EXA1` SKNP Vx (R121). -/
  | sknp (x : Nibble)
  /-- `FX07` LD Vx,DT (R122). -/
  | ldVxDT (x : Nibble)
  /-- `FX0A` LD Vx,K (R123). -/
  | ldVxK (x : Nibble)
  /-- `FX15` LD DT,Vx (R124). -/
  | ldDTVx (x : Nibble)
  /-- `FX18` LD ST,Vx (R125). -/
  | ldSTVx (x : Nibble)
  /-- `FX1E` ADD I,Vx (42_index_memory.md R101). -/
  | addI (x : Nibble)
  /-- `FX29` LD F,Vx (R102). -/
  | ldF (x : Nibble)
  /-- `FX33` LD B,Vx (R103). -/
  | ldB (x : Nibble)
  /-- `FX55` LD [I],Vx (R104). -/
  | ldMemVx (x : Nibble)
  /-- `FX65` LD Vx,[I] (R105). -/
  | ldVxMem (x : Nibble)
  /-- UNDEF: a word no row above matches (30_encoding.md R56; 40_control_flow.md R66). -/
  | undef (word : Word)
  deriving DecidableEq, Repr

end Sys2Proof
end

