-- ==== Sys2Proof/WellFormed.lean ====
section
/-! DEFINITION. Which terms of `Instr` stand for a word of the machine: every operand value is encodable (spec/30_encoding.md
R47), so the only checks are the words that SYS and UNDEF do not cover (R51, R56). -/

namespace Sys2Proof

/-- SYS is every `0NNN` but CLS (`00E0`) and RET (`00EE`) (30_encoding.md R51). -/
def sysOperandOk (nnn : Addr) : Bool := nnn != 0x0E0 && nnn != 0x0EE

/-- The holes of the sub-tables of families 8, E and F: exactly the undefined words outside family 0
(30_encoding.md R52, R53, R54, R56). -/
def isHole (w : Word) : Bool :=
  match (w.extractLsb' 12 4).toNat with
  | 0x8 => !([0x0, 0x1, 0x2, 0x3, 0x4, 0x5, 0x6, 0x7, 0xE].contains (w.extractLsb' 0 4).toNat)
  | 0xE => !([0x9E, 0xA1].contains (w.extractLsb' 0 8).toNat)
  | 0xF => !([0x07, 0x0A, 0x15, 0x18, 0x1E, 0x29, 0x33, 0x55, 0x65].contains (w.extractLsb' 0 8).toNat)
  | _ => false

/-- The instruction stands for some word of the machine. -/
def Instr.wf : Instr → Bool
  | .cls => true
  | .ret => true
  | .sys nnn => sysOperandOk nnn
  | .jp _ => true
  | .call _ => true
  | .seImm _ _ => true
  | .sneImm _ _ => true
  | .seReg _ _ _ => true
  | .ldImm _ _ => true
  | .addImm _ _ => true
  | .ldReg _ _ => true
  | .orReg _ _ => true
  | .andReg _ _ => true
  | .xorReg _ _ => true
  | .addReg _ _ => true
  | .subReg _ _ => true
  | .shrReg _ _ => true
  | .subnReg _ _ => true
  | .shlReg _ _ => true
  | .sneReg _ _ _ => true
  | .ldI _ => true
  | .jpV0 _ => true
  | .rnd _ _ => true
  | .drw _ _ _ => true
  | .skp _ => true
  | .sknp _ => true
  | .ldVxDT _ => true
  | .ldVxK _ => true
  | .ldDTVx _ => true
  | .ldSTVx _ => true
  | .addI _ => true
  | .ldF _ => true
  | .ldB _ => true
  | .ldMemVx _ => true
  | .ldVxMem _ => true
  | .undef w => isHole w

end Sys2Proof
end

