-- ==== Sys2Proof/Decode.lean ====
section
/-! DEFINITION. The decoder (spec/30_encoding.md R47 to R56), total on 16-bit words and on byte strings, the encoder written
from the same tables, the opcode table itself, and the entry the host calls. The opcode numbers and the places of `X`
and `Y` are the spec's general knowledge (93_implementation_defined.md GK1; log 4). -/

namespace Sys2Proof

/-- `fam <- ir[15:12]` (R47). -/
def famOf (w : Word) : Nibble := w.extractLsb' 12 4

/-- `X <- ir[11:8]` (R47). -/
def xOf (w : Word) : Nibble := w.extractLsb' 8 4

/-- `Y <- ir[7:4]` (R47). -/
def yOf (w : Word) : Nibble := w.extractLsb' 4 4

/-- `N <- ir[3:0]` (R47). -/
def nOf (w : Word) : Nibble := w.extractLsb' 0 4

/-- `NN <- ir[7:0]` (R47). -/
def nnOf (w : Word) : Byte := w.extractLsb' 0 8

/-- `NNN <- ir[11:0]` (R47). -/
def nnnOf (w : Word) : Addr := w.extractLsb' 0 12

/-- Family 0 compares the whole of `NNN` (R51, decision D12; log 11). -/
def decodeFam0 (w : Word) : Instr :=
  match (nnnOf w).toNat with
  | 0x0E0 => .cls
  | 0x0EE => .ret
  | _ => .sys (nnnOf w)

/-- Family 8 switches on `N` (R52). -/
def decodeFam8 (w : Word) : Instr :=
  match (nOf w).toNat with
  | 0x0 => .ldReg (xOf w) (yOf w)
  | 0x1 => .orReg (xOf w) (yOf w)
  | 0x2 => .andReg (xOf w) (yOf w)
  | 0x3 => .xorReg (xOf w) (yOf w)
  | 0x4 => .addReg (xOf w) (yOf w)
  | 0x5 => .subReg (xOf w) (yOf w)
  | 0x6 => .shrReg (xOf w) (yOf w)
  | 0x7 => .subnReg (xOf w) (yOf w)
  | 0xE => .shlReg (xOf w) (yOf w)
  | _ => .undef w

/-- Family E switches on `NN` (R53, decision D14; log 11). -/
def decodeFamE (w : Word) : Instr :=
  match (nnOf w).toNat with
  | 0x9E => .skp (xOf w)
  | 0xA1 => .sknp (xOf w)
  | _ => .undef w

/-- Family F switches on `NN` (R54, decision D14; log 11). -/
def decodeFamF (w : Word) : Instr :=
  match (nnOf w).toNat with
  | 0x07 => .ldVxDT (xOf w)
  | 0x0A => .ldVxK (xOf w)
  | 0x15 => .ldDTVx (xOf w)
  | 0x18 => .ldSTVx (xOf w)
  | 0x1E => .addI (xOf w)
  | 0x29 => .ldF (xOf w)
  | 0x33 => .ldB (xOf w)
  | 0x55 => .ldMemVx (xOf w)
  | 0x65 => .ldVxMem (xOf w)
  | _ => .undef w

/-- The outer switch on `fam` (R49, R50): exactly one instruction for every 16-bit word. Families 5 and 9 have no inner
switch (R55, decision D13; log 11). -/
def decodeWord (w : Word) : Instr :=
  match (famOf w).toNat with
  | 0x0 => decodeFam0 w
  | 0x1 => .jp (nnnOf w)
  | 0x2 => .call (nnnOf w)
  | 0x3 => .seImm (xOf w) (nnOf w)
  | 0x4 => .sneImm (xOf w) (nnOf w)
  | 0x5 => .seReg (xOf w) (yOf w) (nOf w)
  | 0x6 => .ldImm (xOf w) (nnOf w)
  | 0x7 => .addImm (xOf w) (nnOf w)
  | 0x8 => decodeFam8 w
  | 0x9 => .sneReg (xOf w) (yOf w) (nOf w)
  | 0xA => .ldI (nnnOf w)
  | 0xB => .jpV0 (nnnOf w)
  | 0xC => .rnd (xOf w) (nnOf w)
  | 0xD => .drw (xOf w) (yOf w) (nOf w)
  | 0xE => decodeFamE w
  | _ => decodeFamF w

/-- Why a byte string is no instruction. -/
inductive DecodeError where
  /-- Fewer than the two bytes of an instruction (30_encoding.md R47). Raised by `decode` alone; a fetch always has two. -/
  | truncated
  deriving DecidableEq, Repr

/-- The instruction at the head of a byte string, high byte first (20_memory.md R33), and the bytes after it. -/
def decode : List Byte → Except DecodeError (Instr × List Byte)
  | hi :: lo :: rest => .ok (decodeWord (hi ++ lo), rest)
  | _ => .error .truncated

/-- The word of an instruction (R48, R50 to R54); of a well-formed one, the word it was decoded from. -/
def encode : Instr → Word
  | .cls => 0x00E0
  | .ret => 0x00EE
  | .sys nnn => 0x0#4 ++ nnn
  | .jp nnn => 0x1#4 ++ nnn
  | .call nnn => 0x2#4 ++ nnn
  | .seImm x nn => 0x3#4 ++ x ++ nn
  | .sneImm x nn => 0x4#4 ++ x ++ nn
  | .seReg x y n => 0x5#4 ++ x ++ y ++ n
  | .ldImm x nn => 0x6#4 ++ x ++ nn
  | .addImm x nn => 0x7#4 ++ x ++ nn
  | .ldReg x y => 0x8#4 ++ x ++ y ++ 0x0#4
  | .orReg x y => 0x8#4 ++ x ++ y ++ 0x1#4
  | .andReg x y => 0x8#4 ++ x ++ y ++ 0x2#4
  | .xorReg x y => 0x8#4 ++ x ++ y ++ 0x3#4
  | .addReg x y => 0x8#4 ++ x ++ y ++ 0x4#4
  | .subReg x y => 0x8#4 ++ x ++ y ++ 0x5#4
  | .shrReg x y => 0x8#4 ++ x ++ y ++ 0x6#4
  | .subnReg x y => 0x8#4 ++ x ++ y ++ 0x7#4
  | .shlReg x y => 0x8#4 ++ x ++ y ++ 0xE#4
  | .sneReg x y n => 0x9#4 ++ x ++ y ++ n
  | .ldI nnn => 0xA#4 ++ nnn
  | .jpV0 nnn => 0xB#4 ++ nnn
  | .rnd x nn => 0xC#4 ++ x ++ nn
  | .drw x y n => 0xD#4 ++ x ++ y ++ n
  | .skp x => 0xE#4 ++ x ++ 0x9E#8
  | .sknp x => 0xE#4 ++ x ++ 0xA1#8
  | .ldVxDT x => 0xF#4 ++ x ++ 0x07#8
  | .ldVxK x => 0xF#4 ++ x ++ 0x0A#8
  | .ldDTVx x => 0xF#4 ++ x ++ 0x15#8
  | .ldSTVx x => 0xF#4 ++ x ++ 0x18#8
  | .addI x => 0xF#4 ++ x ++ 0x1E#8
  | .ldF x => 0xF#4 ++ x ++ 0x29#8
  | .ldB x => 0xF#4 ++ x ++ 0x33#8
  | .ldMemVx x => 0xF#4 ++ x ++ 0x55#8
  | .ldVxMem x => 0xF#4 ++ x ++ 0x65#8
  | .undef w => w

/-- The high and the low byte of a word, as the machine stores them: high byte at the lower address (20_memory.md R33). -/
def highByte (w : Word) : Byte := w.extractLsb' 8 8

/-- See `highByte`. -/
def lowByte (w : Word) : Byte := w.extractLsb' 0 8

/-- The bytes of a word by ascending address. -/
def wordBytes (w : Word) : List Byte := [highByte w, lowByte w]

/-- The bits the host numbers from the opcode table: bit 0 is the least significant bit of the one word an instruction
has, and every bit from `nbits` up is 0. -/
def tableWord (nbits w : Nat) : Word := BitVec.ofNat 16 (w % 2 ^ nbits)

/-- The host's entry: the instruction this decoder reads from the table's bits `w`, laid out in bytes as memory holds them. -/
def decodeTableWord (nbits w : Nat) : Option Instr :=
  match decode (wordBytes (tableWord nbits w)) with
  | .ok (i, _) => some i
  | .error _ => none

/-- A row of spec/opcode_table.json: a word `w` belongs to it when `w & mask = pat`. -/
structure OpcodeRow where
  /-- The row's "mnemonic". -/
  name : String
  /-- The row's "mask". -/
  mask : Word
  /-- The row's "match". -/
  pat : Word
  deriving DecidableEq, Repr

/-- The rows of spec/opcode_table.json by decreasing number of 1 bits in the mask (R49): the rows that fix all 16 bits
and those of families E and F. -/
def opcodeRowsFixedX : List OpcodeRow :=
  [⟨"CLS", 0xFFFF, 0x00E0⟩, ⟨"RET", 0xFFFF, 0x00EE⟩, ⟨"SKP_Vx", 0xF0FF, 0xE09E⟩, ⟨"SKNP_Vx", 0xF0FF, 0xE0A1⟩,
   ⟨"LD_Vx_DT", 0xF0FF, 0xF007⟩, ⟨"LD_Vx_K", 0xF0FF, 0xF00A⟩, ⟨"LD_DT_Vx", 0xF0FF, 0xF015⟩,
   ⟨"LD_ST_Vx", 0xF0FF, 0xF018⟩, ⟨"ADD_I_Vx", 0xF0FF, 0xF01E⟩, ⟨"LD_F_Vx", 0xF0FF, 0xF029⟩,
   ⟨"LD_B_Vx", 0xF0FF, 0xF033⟩, ⟨"LD__I__Vx", 0xF0FF, 0xF055⟩, ⟨"LD_Vx__I", 0xF0FF, 0xF065⟩]

/-- The rows of family 8. -/
def opcodeRowsFam8 : List OpcodeRow :=
  [⟨"LD_Vx_Vy", 0xF00F, 0x8000⟩, ⟨"OR_Vx_Vy", 0xF00F, 0x8001⟩, ⟨"AND_Vx_Vy", 0xF00F, 0x8002⟩,
   ⟨"XOR_Vx_Vy", 0xF00F, 0x8003⟩, ⟨"ADD_Vx_Vy", 0xF00F, 0x8004⟩, ⟨"SUB_Vx_Vy", 0xF00F, 0x8005⟩,
   ⟨"SHR_Vx_Vy", 0xF00F, 0x8006⟩, ⟨"SUBN_Vx_Vy", 0xF00F, 0x8007⟩, ⟨"SHL_Vx_Vy", 0xF00F, 0x800E⟩]

/-- The rows that fix the family alone. -/
def opcodeRowsFamily : List OpcodeRow :=
  [⟨"SYS_NNN", 0xF000, 0x0000⟩, ⟨"JP_NNN", 0xF000, 0x1000⟩, ⟨"CALL_NNN", 0xF000, 0x2000⟩,
   ⟨"SE_Vx_NN", 0xF000, 0x3000⟩, ⟨"SNE_Vx_NN", 0xF000, 0x4000⟩, ⟨"SE_Vx_Vy", 0xF000, 0x5000⟩,
   ⟨"LD_Vx_NN", 0xF000, 0x6000⟩, ⟨"ADD_Vx_NN", 0xF000, 0x7000⟩, ⟨"SNE_Vx_Vy", 0xF000, 0x9000⟩,
   ⟨"LD_I_NNN", 0xF000, 0xA000⟩, ⟨"JP_V0_NNN", 0xF000, 0xB000⟩, ⟨"RND_Vx_NN", 0xF000, 0xC000⟩,
   ⟨"DRW_Vx_Vy_N", 0xF000, 0xD000⟩]

/-- The whole table in the order of R49; the catch-all row is last. -/
def opcodeTable : List OpcodeRow :=
  opcodeRowsFixedX ++ opcodeRowsFam8 ++ opcodeRowsFamily ++ [⟨"UNDEF", 0x0000, 0x0000⟩]

/-- The table-driven decoder of R49: the first row that matches wins. -/
def tableRowOf (w : Word) : Option OpcodeRow := opcodeTable.find? fun r => w &&& r.mask == r.pat

/-- The "mnemonic" in spec/opcode_table.json of an instruction's row. -/
def Instr.mnemonic : Instr → String
  | .cls => "CLS"
  | .ret => "RET"
  | .sys _ => "SYS_NNN"
  | .jp _ => "JP_NNN"
  | .call _ => "CALL_NNN"
  | .seImm _ _ => "SE_Vx_NN"
  | .sneImm _ _ => "SNE_Vx_NN"
  | .seReg _ _ _ => "SE_Vx_Vy"
  | .ldImm _ _ => "LD_Vx_NN"
  | .addImm _ _ => "ADD_Vx_NN"
  | .ldReg _ _ => "LD_Vx_Vy"
  | .orReg _ _ => "OR_Vx_Vy"
  | .andReg _ _ => "AND_Vx_Vy"
  | .xorReg _ _ => "XOR_Vx_Vy"
  | .addReg _ _ => "ADD_Vx_Vy"
  | .subReg _ _ => "SUB_Vx_Vy"
  | .shrReg _ _ => "SHR_Vx_Vy"
  | .subnReg _ _ => "SUBN_Vx_Vy"
  | .shlReg _ _ => "SHL_Vx_Vy"
  | .sneReg _ _ _ => "SNE_Vx_Vy"
  | .ldI _ => "LD_I_NNN"
  | .jpV0 _ => "JP_V0_NNN"
  | .rnd _ _ => "RND_Vx_NN"
  | .drw _ _ _ => "DRW_Vx_Vy_N"
  | .skp _ => "SKP_Vx"
  | .sknp _ => "SKNP_Vx"
  | .ldVxDT _ => "LD_Vx_DT"
  | .ldVxK _ => "LD_Vx_K"
  | .ldDTVx _ => "LD_DT_Vx"
  | .ldSTVx _ => "LD_ST_Vx"
  | .addI _ => "ADD_I_Vx"
  | .ldF _ => "LD_F_Vx"
  | .ldB _ => "LD_B_Vx"
  | .ldMemVx _ => "LD__I__Vx"
  | .ldVxMem _ => "LD_Vx__I"
  | .undef _ => "UNDEF"

end Sys2Proof
end

