-- ==== Sys2Proof/Config.lean ====
section
/-! DEFINITION. What is fixed for one machine: the implementation parameters of spec/00_scope.md section 5, and the one
free value of the model, the random byte. -/

namespace Sys2Proof.Config

/-- `MEM_SIZE`: 4096 bytes (00_scope.md section 5; 20_memory.md R30). -/
def memSize : Nat := 4096

/-- `LOAD_OFFSET`, where the image is loaded and where `pc` starts. PRESUMED: an OPEN parameter of the spec, here at the
spec's default (92_eei_decisions.md D1, GK2; log 2). -/
def loadOffset : Nat := 0x200

/-- `MAX_IMAGE = MEM_SIZE - LOAD_OFFSET` (00_scope.md section 5). -/
def maxImage : Nat := memSize - loadOffset

/-- `GLYPH_BASE`, the address of the glyph table. PRESUMED: an OPEN parameter of the spec, here at the spec's default
(92_eei_decisions.md D2, GK3; log 3). -/
def glyphBase : Nat := 0x050

/-- `GLYPH_DATA`, sixteen glyphs of five bytes, top row first. PRESUMED: an OPEN parameter of the spec, here the default
table of 10_state.md R22 (92_eei_decisions.md D3, GK4; log 3). -/
def glyphData : List Byte :=
  [0xF0, 0x90, 0x90, 0x90, 0xF0] ++ [0x20, 0x60, 0x20, 0x20, 0x70] ++
  [0xF0, 0x10, 0xF0, 0x80, 0xF0] ++ [0xF0, 0x10, 0xF0, 0x10, 0xF0] ++
  [0x90, 0x90, 0xF0, 0x10, 0x10] ++ [0xF0, 0x80, 0xF0, 0x10, 0xF0] ++
  [0xF0, 0x80, 0xF0, 0x90, 0xF0] ++ [0xF0, 0x10, 0x20, 0x40, 0x40] ++
  [0xF0, 0x90, 0xF0, 0x90, 0xF0] ++ [0xF0, 0x90, 0xF0, 0x10, 0xF0] ++
  [0xF0, 0x90, 0xF0, 0x90, 0x90] ++ [0xE0, 0x90, 0xE0, 0x90, 0xE0] ++
  [0xF0, 0x80, 0x80, 0x80, 0xF0] ++ [0xE0, 0x90, 0x90, 0x90, 0xE0] ++
  [0xF0, 0x80, 0xF0, 0x80, 0xF0] ++ [0xF0, 0x80, 0xF0, 0x80, 0x80]

/-- The free value of the model: the random byte of the `n`-th consumed draw for which the driver has presented no byte
of its own (41_alu.md R92, 10_state.md R24: "a free input under no law other than being 8 bits wide"; log 1). It has no
body, so nothing can be proved of it. -/
opaque randomByte : Nat → Byte

end Sys2Proof.Config
end

