-- ==== Sys2Proof/Machine/State.lean ====
section
/-! DEFINITION. The state of the CHIP-8 CORE (spec/10_state.md), as plain data, and its value after reset (R26). -/

namespace Sys2Proof.Machine

/-- `kw`, the key-wait latch (10_state.md R19): "one of {Idle, WaitingForRelease(key, destRegister)}". `dest` is recorded
and read by no rule (90_conflicts.md C1; log 22). -/
inductive KeyWait where
  /-- Fetch proceeds. -/
  | idle
  /-- Steps only watch `key` until it is released. -/
  | waitingForRelease (key dest : Nibble)
  deriving DecidableEq, Repr

/-- The 4096 bytes of 10_state.md R21 as (address, byte) pairs in one canonical form (`Memory.wf` in Machine/Ops.lean):
addresses strictly rising and below 4096, no pair equal to what its address reads as unlisted (log 6). -/
abbrev Memory := List Host.Cell

/-- The whole state. The last two fields are the model's own (log 1); every other field is the spec's (10_state.md). -/
structure State where
  /-- `V[0..15]`, the general registers; `V[15]` is `VF` (R10, R11). -/
  v : Vector Byte 16
  /-- `I`, the index register, 16 bits stored (R12). -/
  i : Word
  /-- `pc`, the program counter, 16 bits stored (R13). -/
  pc : Word
  /-- `stack[0..15]`, the call stack's slots (R14). -/
  stack : Vector Word 16
  /-- `sp`, the number of valid stack entries, 0 to 16 (R14). -/
  sp : Fin 17
  /-- `DT`, the delay timer (R15). -/
  dt : Byte
  /-- `ST`, the sound timer (R16). -/
  st : Byte
  /-- `FB`, the framebuffer: row `y` is a 64-bit word whose bit `x` is the pixel in column `x` (R17; log 20). -/
  fb : Vector (BitVec 64) 32
  /-- `keys[0..15]`, the keypad latch: bit `k` is key `k`, 1 is pressed (R18). -/
  keys : BitVec 16
  /-- `kw`, the key-wait latch (R19). -/
  kw : KeyWait
  /-- `fault`: 0 none, 1 StackOverflow, 2 StackUnderflow, 3 never produced (R20). -/
  fault : BitVec 2
  /-- `Mem[0..4095]` (R21). -/
  mem : Memory
  /-- The model's own: the `rnd` argument of the Step about to run (00_scope.md R2), where the driver has presented one. -/
  rnd : Option Byte
  /-- The model's own: how many random bytes have been consumed, the argument of the free value `Config.randomByte`. -/
  draws : Nat
  deriving DecidableEq, Repr

/-- Reasons for which the machine could stop. There are none: the core "never stops by itself" (70_reset_and_hazards.md
R161), no access faults (20_memory.md R31), and the two stack faults are the sticky register `fault`, a next state
(60_exceptions.md R131 to R134; log 7). -/
inductive Fault where
  deriving DecidableEq, Repr

/-- Reasons for which the model gives no meaning. -/
inductive Refusal where
  /-- An instruction without a meaning yet. Raised by a refused arm of `exec` alone, of which there is none; safe. -/
  | notModelled (mnemonic : String)
  /-- Two requests asserted in one port cycle: outside the contract (92_eei_decisions.md D26, 93_implementation_defined.md
  U9). Raised by `portCycle` in Machine/Ports.lean alone, never by a step; safe. -/
  | simultaneousRequests
  /-- A `load_req` whose data stream ends before `load_len` bytes: outside the contract of 00_scope.md R4. Raised by
  `portCycle` alone, never by a step; safe. -/
  | loadStreamShort
  deriving DecidableEq, Repr

/-- The state right after `Reset` (10_state.md R26, 70_reset_and_hazards.md R150): `pc` at `LOAD_OFFSET`, no memory listed
(every byte at its reset content), everything else 0, empty or idle. The zeros are the spec's decision D4 (log 5). -/
def State.reset : State where
  v := Vector.replicate 16 0
  i := 0
  pc := BitVec.ofNat 16 Config.loadOffset
  stack := Vector.replicate 16 0
  sp := 0
  dt := 0
  st := 0
  fb := Vector.replicate 32 0
  keys := 0
  kw := .idle
  fault := 0
  mem := []
  rnd := none
  draws := 0

end Sys2Proof.Machine
end

