-- ==== Sys2Proof/Machine/Ops.lean ====
section
/-! DEFINITION. The named operations over registers, memory, the stack, the framebuffer and the latches: the one place where
each piece of state is read and written, the fetch, the wait check, and taking a fault. -/

namespace Sys2Proof.Machine

/-! Updates of one field -/

/-- `V[x]` (10_state.md R10). -/
def State.getV (s : State) (x : Nibble) : Byte := s.v[x.toNat]'(x.isLt)

/-- `V[x] <- b` (R10). -/
def State.setV (s : State) (x : Nibble) (b : Byte) : State := { s with v := s.v.set x.toNat b x.isLt }

/-- `I <- a` (R12). -/
def State.setI (s : State) (a : Word) : State := { s with i := a }

/-- `pc <- a` (R13). -/
def State.setPc (s : State) (a : Word) : State := { s with pc := a }

/-- The call stack's slots and pointer (R14). -/
def State.setStack (s : State) (st : Vector Word 16) (sp : Fin 17) : State := { s with stack := st, sp := sp }

/-- `DT <- b` (R15). -/
def State.setDT (s : State) (b : Byte) : State := { s with dt := b }

/-- `ST <- b` (R16). -/
def State.setST (s : State) (b : Byte) : State := { s with st := b }

/-- The framebuffer (R17). -/
def State.setFB (s : State) (fb : Vector (BitVec 64) 32) : State := { s with fb := fb }

/-- The keypad latch (R18). -/
def State.setKeys (s : State) (k : BitVec 16) : State := { s with keys := k }

/-- `kw <- k` (R19). -/
def State.setKW (s : State) (k : KeyWait) : State := { s with kw := k }

/-- The fault register (R20). -/
def State.setFault (s : State) (f : BitVec 2) : State := { s with fault := f }

/-- The memory (R21). -/
def State.setMem (s : State) (m : Memory) : State := { s with mem := m }

/-- The model's own random input (log 1). -/
def State.setRandom (s : State) (r : Option Byte) (n : Nat) : State := { s with rnd := r, draws := n }

/-! Memory -/

/-- What an unlisted address reads as: the reset contents of 10_state.md R26, the glyph table or 0 (log 6). -/
def Memory.unlisted (a : Nat) : Byte :=
  if Config.glyphBase ≤ a then Config.glyphData.getD (a - Config.glyphBase) 0 else 0

/-- The byte a memory holds at an address below 4096. -/
def Memory.get : Memory → Nat → Byte
  | [], a => Memory.unlisted a
  | (b, w) :: m, a => if a = b then w else Memory.get m a

/-- A pair in front of a memory, left out where it says what its address reads as anyway. -/
def Memory.consCell (a : Nat) (b : Byte) (m : Memory) : Memory :=
  if b = Memory.unlisted a then m else (a, b) :: m

/-- One byte written, keeping the canonical form. -/
def Memory.set : Memory → Nat → Byte → Memory
  | [], a, b => Memory.consCell a b []
  | (c, w) :: m, a, b =>
    if a < c then Memory.consCell a b ((c, w) :: m)
    else if a = c then Memory.consCell a b m
    else (c, w) :: Memory.set m a b

/-- Every address of a memory is at least `lo` and below 4096, they rise strictly, and no pair says what its address reads
as unlisted. -/
def Memory.wfFrom : Nat → Memory → Bool
  | _, [] => true
  | lo, (a, b) :: m => decide (lo ≤ a) && decide (a < Config.memSize) && b != Memory.unlisted a && Memory.wfFrom (a + 1) m

/-- The canonical form of a memory (log 6). -/
def Memory.wf (m : Memory) : Bool := Memory.wfFrom 0 m

/-- The address translator: `ea = a & 0xFFF`, that is `a mod 4096` (20_memory.md R31). -/
def mask12 (a : Nat) : Nat := a % Config.memSize

/-- `MemRead(a, 1)` (20_memory.md R32). -/
def memRead (s : State) (a : Nat) : Byte := Memory.get s.mem (mask12 a)

/-- `MemWrite(a, 1, b)` (20_memory.md R32). -/
def memWrite (s : State) (a : Nat) (b : Byte) : State := s.setMem (Memory.set s.mem (mask12 a) b)

/-! Fetch and the program counter -/

/-- The word at `pc`, high byte at the lower address, each byte address masked by itself (20_memory.md R33, R44;
30_encoding.md R46). -/
def fetchWord (s : State) : Word := memRead s s.pc.toNat ++ memRead s (s.pc.toNat + 1)

/-- `pc <- (pc + 2) mod 65536` (30_encoding.md R46; decision D6; log 8). -/
def advancePc (s : State) : State := s.setPc (s.pc + 2)

/-- `pc <- (pc - 2) mod 65536` (44_keypad_timers.md R123). -/
def rewindPc (s : State) : State := s.setPc (s.pc - 2)

/-- A skip: two more where the condition holds (40_control_flow.md R75). -/
def skipIf (c : Bool) (s : State) : State := if c then advancePc s else s

/-! Faults -/

/-- The two synchronous exceptions (60_exceptions.md R130). -/
inductive StackFault where
  /-- A push on a full stack (R131). -/
  | overflow
  /-- A pop from an empty stack (R132). -/
  | underflow
  deriving DecidableEq, Repr

/-- The code of an exception in the fault register (60_exceptions.md R130, decision D10; log 7). -/
def faultCode : StackFault → BitVec 2
  | .overflow => 1
  | .underflow => 2

/-- Taking an exception (60_exceptions.md R133): the only write is the fault register. The machine has no return from one
(R140): only `Reset` clears the register (R134). -/
def raiseFault (f : StackFault) (s : State) : State := s.setFault (faultCode f)

/-- An operation that may raise, run to a next state: its result, or the fault taken on the state before it (R133). -/
def orRaise (s : State) : Except StackFault State → Host.Outcome State Fault Refusal
  | .ok t => .next t
  | .error f => .next (raiseFault f s)

/-- While the fault register is not 0 a Step changes nothing (60_exceptions.md R134; decision D11; log 7). -/
def halted (s : State) : Bool := s.fault != 0

/-! The call stack (40_control_flow.md R76; decision D8; log 9) -/

/-- `Push(v)`. -/
def push (a : Word) (s : State) : Except StackFault State :=
  if h : s.sp.val < 16 then .ok (s.setStack (s.stack.set s.sp.val a h) ⟨s.sp.val + 1, by omega⟩)
  else .error .overflow

/-- `Pop()`: the popped entry and the state after. -/
def pop (s : State) : Except StackFault (Word × State) :=
  if h : s.sp.val = 0 then .error .underflow
  else .ok (s.stack[s.sp.val - 1]'(by omega), s.setStack s.stack ⟨s.sp.val - 1, by omega⟩)

/-! The framebuffer (43_display.md R112) -/

/-- `FB[y][x]`. -/
def pixel (s : State) (x : Fin 64) (y : Fin 32) : Bool := s.fb[y.val].getLsbD x.val

/-- `FB[y][x] <- FB[y][x] ^ 1`. -/
def flipPixel (s : State) (x : Fin 64) (y : Fin 32) : State :=
  s.setFB (s.fb.set y.val (s.fb[y.val] ^^^ BitVec.twoPow 64 x.val))

/-- Every pixel 0 (43_display.md R110). -/
def clearFB (s : State) : State := s.setFB (Vector.replicate 32 0)

/-! The keypad and the key-wait latch -/

/-- `keys[k]` (10_state.md R18). -/
def keyDown (s : State) (k : Nibble) : Bool := s.keys.getLsbD k.toNat

/-- The pressed key of lowest index (44_keypad_timers.md R123), scanning 0 to 15. -/
def firstKey (s : State) : Option Nibble :=
  ((List.range 16).find? fun k => s.keys.getLsbD k).map (BitVec.ofNat 4)

/-- The wait check of `Step` (44_keypad_timers.md R127): nothing to do while idle; else the Step ends here, idle again if
the key is released. -/
def waitCheck (s : State) : Option State :=
  match s.kw with
  | .idle => none
  | .waitingForRelease k _ => some (if keyDown s k then s else s.setKW .idle)

/-! The random byte (41_alu.md R92; log 1) -/

/-- `rnd`: the byte the driver has presented with this Step, else the next free byte. -/
def randomByte (s : State) : Byte := s.rnd.getD (Config.randomByte s.draws)

/-- The byte is consumed: a later draw is another byte. -/
def consumeRandom (s : State) : State := s.setRandom none (s.draws + 1)

end Sys2Proof.Machine
end

