-- ==== Sys2Proof/Machine/Operands.lean ====
section
/-! DEFINITION. The operand forms of the instructions (spec/30_encoding.md R60): how an immediate, an address, a key index,
a glyph index and a pair of coordinates are read. -/

namespace Sys2Proof.Machine

/-- `zext_16(NNN)` (30_encoding.md R60). -/
def immAddr (nnn : Addr) : Word := nnn.setWidth 16

/-- The unmasked address of byte `k` of an access at `I`: the memory operations mask it (42_index_memory.md, the addressing
mode; 20_memory.md R31). -/
def indexAddr (s : State) (k : Nat) : Nat := s.i.toNat + k

/-- `ea_k = (I + k) & 0xFFF`, the location byte `k` of an access at `I` stands in. -/
def effAddr (s : State) (k : Nat) : Nat := mask12 (indexAddr s k)

/-- The key SKP and SKNP test: the low 4 bits of `V[x]` (44_keypad_timers.md R126; decision D15; log 12). -/
def keyOperand (s : State) (x : Nibble) : Nibble := (s.getV x).setWidth 4

/-- `GLYPH_BASE + 5 * V[x]`, all 8 bits of `V[x]` (42_index_memory.md R102; decision D19; log 16). -/
def glyphAddr (s : State) (x : Nibble) : Word := BitVec.ofNat 16 (Config.glyphBase + 5 * (s.getV x).toNat)

/-- `NNN + V[0]`, at most 0x10FE, not masked (40_control_flow.md R74). -/
def offsetTarget (s : State) (nnn : Addr) : Word := immAddr nnn + (s.getV 0).setWidth 16

/-- The column of a sprite's origin, `V[x] mod 64` (43_display.md R111). -/
def originX (s : State) (x : Nibble) : Nat := (s.getV x).toNat % 64

/-- The row of a sprite's origin, `V[y] mod 32` (43_display.md R111). -/
def originY (s : State) (y : Nibble) : Nat := (s.getV y).toNat % 32

/-- The three decimal digits of a byte: hundreds, tens, units (42_index_memory.md R103). -/
def bcdHundreds (b : Byte) : Byte := BitVec.ofNat 8 (b.toNat / 100)

/-- See `bcdHundreds`. -/
def bcdTens (b : Byte) : Byte := BitVec.ofNat 8 (b.toNat / 10 % 10)

/-- See `bcdHundreds`. -/
def bcdUnits (b : Byte) : Byte := BitVec.ofNat 8 (b.toNat % 10)

end Sys2Proof.Machine
end

