-- ==== Sys2Proof/Machine/Flags.lean ====
section
/-! DEFINITION. The one flag, `VF` (spec/10_state.md R11): the value each flag-defining instruction gives it, computed on
exact naturals, and the order of the writes (41_alu.md R80). -/

namespace Sys2Proof.Machine

/-- `VF`, the name of `V[15]` (10_state.md R11). -/
def vf : Nibble := 15

/-- A flag write stores the 8-bit value 0 or 1 (10_state.md R11). -/
def flagByte (c : Bool) : Byte := if c then 1 else 0

/-- Carry out of `a + b`: the exact sum exceeds 255 (41_alu.md R87). -/
def carryFlag (a b : Byte) : Byte := flagByte (decide (a.toNat + b.toNat > 255))

/-- No borrow in `a - b`: `a >= b` before the operation (41_alu.md R88, R90). -/
def noBorrowFlag (a b : Byte) : Byte := flagByte (decide (a.toNat ≥ b.toNat))

/-- The bit a right shift puts out, bit 0 (41_alu.md R89). -/
def lowBitFlag (b : Byte) : Byte := flagByte (b.getLsbD 0)

/-- The bit a left shift puts out, bit 7 (41_alu.md R91). -/
def highBitFlag (b : Byte) : Byte := flagByte (b.getLsbD 7)

/-- The result to `V[x]`, then the flag to `VF`, last (41_alu.md R80; decision D9; log 10). -/
def writeWithFlag (s : State) (x : Nibble) (result flag : Byte) : State := (s.setV x result).setV vf flag

end Sys2Proof.Machine
end

