-- ==== Sys2Proof/Machine/Alu.lean ====
section
/-! DEFINITION. Register, ALU and random instructions (spec/41_alu.md). Operands are the values before the instruction; the
result goes to `V[x]`, then the flag to `VF` (R80; log 10). -/

namespace Sys2Proof.Machine

/-- LD Vx,NN (R81). -/
def execLdImm (x : Nibble) (nn : Byte) (s : State) : Host.Outcome State Fault Refusal := .next (s.setV x nn)

/-- ADD Vx,NN: wraps, no flag (R82). -/
def execAddImm (x : Nibble) (nn : Byte) (s : State) : Host.Outcome State Fault Refusal :=
  .next (s.setV x (s.getV x + nn))

/-- LD Vx,Vy (R83). -/
def execLdReg (x y : Nibble) (s : State) : Host.Outcome State Fault Refusal := .next (s.setV x (s.getV y))

/-- OR Vx,Vy: `VF` cleared (R84). -/
def execOr (x y : Nibble) (s : State) : Host.Outcome State Fault Refusal :=
  .next (writeWithFlag s x (s.getV x ||| s.getV y) 0)

/-- AND Vx,Vy: `VF` cleared (R85). -/
def execAnd (x y : Nibble) (s : State) : Host.Outcome State Fault Refusal :=
  .next (writeWithFlag s x (s.getV x &&& s.getV y) 0)

/-- XOR Vx,Vy: `VF` cleared (R86). -/
def execXor (x y : Nibble) (s : State) : Host.Outcome State Fault Refusal :=
  .next (writeWithFlag s x (s.getV x ^^^ s.getV y) 0)

/-- ADD Vx,Vy: `VF` is the carry (R87). -/
def execAdd (x y : Nibble) (s : State) : Host.Outcome State Fault Refusal :=
  .next (writeWithFlag s x (s.getV x + s.getV y) (carryFlag (s.getV x) (s.getV y)))

/-- SUB Vx,Vy: `Vx - Vy`, `VF` is no-borrow (R88). -/
def execSub (x y : Nibble) (s : State) : Host.Outcome State Fault Refusal :=
  .next (writeWithFlag s x (s.getV x - s.getV y) (noBorrowFlag (s.getV x) (s.getV y)))

/-- SHR Vx,Vy: the source is `Vy`; `VF` is its low bit (R89). -/
def execShr (x y : Nibble) (s : State) : Host.Outcome State Fault Refusal :=
  .next (writeWithFlag s x (s.getV y >>> 1) (lowBitFlag (s.getV y)))

/-- SUBN Vx,Vy: `Vy - Vx`, `VF` is no-borrow (R90). -/
def execSubn (x y : Nibble) (s : State) : Host.Outcome State Fault Refusal :=
  .next (writeWithFlag s x (s.getV y - s.getV x) (noBorrowFlag (s.getV y) (s.getV x)))

/-- SHL Vx,Vy: the source is `Vy`; `VF` is its high bit (R91). -/
def execShl (x y : Nibble) (s : State) : Host.Outcome State Fault Refusal :=
  .next (writeWithFlag s x (s.getV y <<< 1) (highBitFlag (s.getV y)))

/-- RND Vx,NN: the random byte of this Step, masked; the byte is consumed (R92; log 1). -/
def execRnd (x : Nibble) (nn : Byte) (s : State) : Host.Outcome State Fault Refusal :=
  .next ((consumeRandom s).setV x (randomByte s &&& nn))

end Sys2Proof.Machine
end

