-- ==== Sys2Proof/Machine/Control.lean ====
section
/-! DEFINITION. Control-flow instructions and the no-ops (spec/40_control_flow.md). Each meaning starts from the state after
the fetch advance: `s.pc` is `pc0 + 2` (30_encoding.md R46; log 24). -/

namespace Sys2Proof.Machine

/-- SYS NNN: a deliberate no-op (R65). -/
def execSys (_nnn : Addr) (s : State) : Host.Outcome State Fault Refusal := .next s

/-- An undefined word: a no-op, nothing recorded (R66). -/
def execUndef (_word : Word) (s : State) : Host.Outcome State Fault Refusal := .next s

/-- RET: `pc <- Pop()`, the entry unmasked; StackUnderflow on an empty stack (R67, R132). -/
def execRet (s : State) : Host.Outcome State Fault Refusal :=
  orRaise s ((pop s).map fun p => p.2.setPc p.1)

/-- JP NNN (R68). -/
def execJp (nnn : Addr) (s : State) : Host.Outcome State Fault Refusal := .next (s.setPc (immAddr nnn))

/-- CALL NNN: push the address after the CALL, then go to NNN; StackOverflow on a full stack (R69, R131). -/
def execCall (nnn : Addr) (s : State) : Host.Outcome State Fault Refusal :=
  orRaise s ((push s.pc s).map fun t => t.setPc (immAddr nnn))

/-- SE Vx,NN (R70). -/
def execSeImm (x : Nibble) (nn : Byte) (s : State) : Host.Outcome State Fault Refusal :=
  .next (skipIf (s.getV x == nn) s)

/-- SNE Vx,NN (R71). -/
def execSneImm (x : Nibble) (nn : Byte) (s : State) : Host.Outcome State Fault Refusal :=
  .next (skipIf (s.getV x != nn) s)

/-- SE Vx,Vy, the low nibble ignored (R72, 30_encoding.md R55; log 11). -/
def execSeReg (x y _n : Nibble) (s : State) : Host.Outcome State Fault Refusal :=
  .next (skipIf (s.getV x == s.getV y) s)

/-- SNE Vx,Vy, the low nibble ignored (R73, 30_encoding.md R55; log 11). -/
def execSneReg (x y _n : Nibble) (s : State) : Host.Outcome State Fault Refusal :=
  .next (skipIf (s.getV x != s.getV y) s)

/-- JP V0,NNN: the sum is stored unmasked (R74). -/
def execJpV0 (nnn : Addr) (s : State) : Host.Outcome State Fault Refusal := .next (s.setPc (offsetTarget s nnn))

end Sys2Proof.Machine
end

