-- ==== Sys2Proof/Machine/Display.lean ====
section
/-! DEFINITION. The display instructions and the sprite and collision engine (spec/43_display.md), and the framebuffer as
the interface reads it (R113). -/

namespace Sys2Proof.Machine

/-- A sprite bit that is 1: `VF` is set if an on pixel is about to go off, then the pixel toggles (R111). -/
def drawPixel (s : State) (x : Fin 64) (y : Fin 32) : State :=
  flipPixel (if pixel s x y then s.setV vf 1 else s) x y

/-- The columns `c`, `c + 1`, … of one sprite row, `k` of them, from the most significant bit; the rest of the row is
skipped at the first column past 63 (R111, R112). -/
def drawCols (b : Byte) (x0 : Nat) (y : Fin 32) : Nat → Nat → State → State
  | 0, _, s => s
  | k + 1, c, s =>
    if h : x0 + c < 64 then
      drawCols b x0 y k (c + 1) (if b.getLsbD (7 - c) then drawPixel s ⟨x0 + c, h⟩ y else s)
    else s

/-- The rows `r`, `r + 1`, … of a sprite, `k` of them; drawing stops at the first row past 31 (R111). -/
def drawRows (x0 y0 : Nat) : Nat → Nat → State → State
  | 0, _, s => s
  | k + 1, r, s =>
    if h : y0 + r < 32 then
      drawRows x0 y0 k (r + 1) (drawCols (memRead s (indexAddr s r)) x0 ⟨y0 + r, h⟩ 8 0 s)
    else s

/-- CLS: every pixel 0, `VF` kept (R110). -/
def execCls (s : State) : Host.Outcome State Fault Refusal := .next (clearFB s)

/-- DRW Vx,Vy,N: the coordinates are read, then `VF` is cleared, then the sprite is drawn (R111; decision D9; log 10). The
pseudocode is followed where R111's corner-case sentence on drawing twice differs from it (log 27). -/
def execDrw (x y n : Nibble) (s : State) : Host.Outcome State Fault Refusal :=
  .next (drawRows (originX s x) (originY s y) n.toNat 0 (s.setV vf 0))

/-- Rows as one number, the first row in the lowest 64 bits. -/
def rowsToNat : List (BitVec 64) → Nat
  | [] => 0
  | r :: rs => r.toNat + 2 ^ 64 * rowsToNat rs

/-- `fb_out`: 2048 bits, bit `64*y + x` is pixel (x, y) (R113, 00_scope.md R4; decision D24; log 20). -/
def fbOut (s : State) : BitVec 2048 := BitVec.ofNat 2048 (rowsToNat s.fb.toList)

end Sys2Proof.Machine
end

