-- ==== Sys2Proof/Machine/Index.lean ====
section
/-! DEFINITION. Index-register and memory instructions (spec/42_index_memory.md). -/

namespace Sys2Proof.Machine

/-- `I <- (I + k) mod 65536`, the update after `k` bytes moved (R104, R105; decision D16; log 13). -/
def bumpI (s : State) (k : Nat) : State := s.setI (BitVec.ofNat 16 (s.i.toNat + k))

/-- The first `k` registers to memory at `I`, by ascending address (R104). -/
def dumpRegs : Nat → State → State
  | 0, s => s
  | k + 1, s => memWrite (dumpRegs k s) (indexAddr s k) (s.getV (BitVec.ofNat 4 k))

/-- Memory at `I` to the first `k` registers, by ascending address (R105). -/
def loadRegs : Nat → State → State
  | 0, s => s
  | k + 1, s => (loadRegs k s).setV (BitVec.ofNat 4 k) (memRead s (indexAddr s k))

/-- LD I,NNN (R100). -/
def execLdI (nnn : Addr) (s : State) : Host.Outcome State Fault Refusal := .next (s.setI (immAddr nnn))

/-- ADD I,Vx: modulo 4096, no flag (R101). -/
def execAddI (x : Nibble) (s : State) : Host.Outcome State Fault Refusal :=
  .next (s.setI (BitVec.ofNat 16 (mask12 (s.i.toNat + (s.getV x).toNat))))

/-- LD F,Vx (R102). -/
def execLdF (x : Nibble) (s : State) : Host.Outcome State Fault Refusal := .next (s.setI (glyphAddr s x))

/-- LD B,Vx: hundreds, tens, units at `I`, `I + 1`, `I + 2`; `I` kept (R103). -/
def execLdB (x : Nibble) (s : State) : Host.Outcome State Fault Refusal :=
  .next (memWrite (memWrite (memWrite s (indexAddr s 0) (bcdHundreds (s.getV x)))
    (indexAddr s 1) (bcdTens (s.getV x))) (indexAddr s 2) (bcdUnits (s.getV x)))

/-- LD [I],Vx: `V[0..x]` to memory, then `I` grows by `x + 1` (R104; decision D17; log 14). -/
def execLdMemVx (x : Nibble) (s : State) : Host.Outcome State Fault Refusal :=
  .next (bumpI (dumpRegs (x.toNat + 1) s) (x.toNat + 1))

/-- LD Vx,[I]: memory to `V[0..x]`, then `I` grows by `x + 1` (R105; decision D17; log 14). -/
def execLdVxMem (x : Nibble) (s : State) : Host.Outcome State Fault Refusal :=
  .next (bumpI (loadRegs (x.toNat + 1) s) (x.toNat + 1))

end Sys2Proof.Machine
end

