-- ==== Sys2Proof/Machine/Keypad.lean ====
section
/-! DEFINITION. Keypad and timer instructions (spec/44_keypad_timers.md). -/

namespace Sys2Proof.Machine

/-- SKP Vx (R120, R126). -/
def execSkp (x : Nibble) (s : State) : Host.Outcome State Fault Refusal :=
  .next (skipIf (keyDown s (keyOperand s x)) s)

/-- SKNP Vx (R121, R126). -/
def execSknp (x : Nibble) (s : State) : Host.Outcome State Fault Refusal :=
  .next (skipIf (!keyDown s (keyOperand s x)) s)

/-- LD Vx,DT (R122). -/
def execLdVxDT (x : Nibble) (s : State) : Host.Outcome State Fault Refusal := .next (s.setV x s.dt)

/-- LD Vx,K: the lowest pressed key to `V[x]` at once and the latch set; with none pressed, `pc` goes back to this
instruction (R123; 90_conflicts.md C1, C7). -/
def execLdVxK (x : Nibble) (s : State) : Host.Outcome State Fault Refusal :=
  match firstKey s with
  | some k => .next ((s.setV x (k.setWidth 8)).setKW (.waitingForRelease k x))
  | none => .next (rewindPc s)

/-- LD DT,Vx (R124). -/
def execLdDTVx (x : Nibble) (s : State) : Host.Outcome State Fault Refusal := .next (s.setDT (s.getV x))

/-- LD ST,Vx (R125). -/
def execLdSTVx (x : Nibble) (s : State) : Host.Outcome State Fault Refusal := .next (s.setST (s.getV x))

end Sys2Proof.Machine
end

