-- ==== Sys2Proof/Machine/Step.lean ====
section
/-! DEFINITION. One `Step` (spec/30_encoding.md R45) and the host's way to place an instruction where it fetches. -/

namespace Sys2Proof.Machine

/-- `Step`: nothing after a fault (60_exceptions.md R134), the wait check (44_keypad_timers.md R127), or fetch, decode and
execute one instruction; `pc` is advanced before the instruction's meaning runs (R46). -/
def step (s : State) : Host.Outcome State Fault Refusal :=
  if halted s then .next s
  else
    match waitCheck s with
    | some t => .next t
    | none => exec (decodeWord (fetchWord s)) (advancePc s)

/-- `s` with an instruction's word stored at `pc`, high byte first, and the two conditions under which a Step fetches at
all: no fault, no key wait (log 17). -/
def State.withFetchWord (s : State) (nbits w : Nat) : State :=
  memWrite (memWrite ((s.setFault 0).setKW .idle) s.pc.toNat (highByte (tableWord nbits w)))
    (s.pc.toNat + 1) (lowByte (tableWord nbits w))

end Sys2Proof.Machine
end

