-- ==== Sys2Proof/Machine/Driver.lean ====
section
/-! DEFINITION. The external operations (spec/00_scope.md R2): `Reset`, `Load`, `Step(rnd)`, `Tick`, `KeyWrite` and
`FbRead`, issued one at a time. `step` in Machine/Step.lean is `Step` with the random byte left free. -/

namespace Sys2Proof.Machine

/-- `Reset` (70_reset_and_hazards.md R150, R151, decision D21): every piece of the spec's state to its reset value. The
model's own random input is not the core's state (10_state.md R24) and is not rewound (log 18). -/
def opReset (s : State) : State := State.reset.setRandom s.rnd s.draws

/-- The bytes of an image into memory from address `a` (70_reset_and_hazards.md R152). -/
def storeBytes : List Byte → Nat → State → State
  | [], _, s => s
  | b :: bs, a, s => storeBytes bs (a + 1) (memWrite s a b)

/-- The image is longer than `4096 - LOAD_OFFSET` (70_reset_and_hazards.md R153). -/
def oversized (bytes : List Byte) : Bool := decide (bytes.length > Config.maxImage)

/-- `Load(bytes)`: copied at `LOAD_OFFSET`, or nothing at all if oversized; nothing else changes (R152, R153, R155). -/
def opLoad (bytes : List Byte) (s : State) : State :=
  if oversized bytes then s else storeBytes bytes Config.loadOffset s

/-- A timer one tick later: 1 less while above 0 (60_exceptions.md R137). -/
def tickDown (b : Byte) : Byte := if b = 0 then 0 else b - 1

/-- `Tick` (60_exceptions.md R137). -/
def opTick (s : State) : State := (s.setDT (tickDown s.dt)).setST (tickDown s.st)

/-- `KeyWrite(k)` (60_exceptions.md R138). -/
def opKeyWrite (k : BitVec 16) (s : State) : State := s.setKeys k

/-- The random argument of a Step is gone once the Step is over (00_scope.md R2). -/
def dropRandom (o : Host.Outcome State Fault Refusal) : Host.Outcome State Fault Refusal :=
  match o with
  | .next t => .next (t.setRandom none t.draws)
  | .fault f => .fault f
  | .refused r => .refused r

/-- `Step(rnd)` (30_encoding.md R45). -/
def opStep (rnd : Byte) (s : State) : Host.Outcome State Fault Refusal :=
  dropRandom (step (s.setRandom (some rnd) s.draws))

/-- The six external operations and their arguments (00_scope.md R2). -/
inductive DriverOp where
  /-- `Reset`. -/
  | reset
  /-- `Load(bytes)`. -/
  | load (bytes : List Byte)
  /-- `Step(rnd)`. -/
  | step (rnd : Byte)
  /-- `Tick`. -/
  | tick
  /-- `KeyWrite(k)`: bit `i` is key `i`. -/
  | keyWrite (k : BitVec 16)
  /-- `FbRead`. -/
  | fbRead
  deriving DecidableEq, Repr

/-- What an operation answers to the driver (00_scope.md R2, R4). -/
inductive Answer where
  /-- Nothing beyond completion. -/
  | done
  /-- `Load` was rejected as oversized (70_reset_and_hazards.md R153). -/
  | loadError
  /-- `FbRead`'s snapshot, row-major (43_display.md R113). -/
  | frame (pixels : BitVec 2048)
  deriving DecidableEq, Repr

/-- The state after an operation. -/
def drive (op : DriverOp) (s : State) : Host.Outcome State Fault Refusal :=
  match op with
  | .reset => .next (opReset s)
  | .load bytes => .next (opLoad bytes s)
  | .step rnd => opStep rnd s
  | .tick => .next (opTick s)
  | .keyWrite k => .next (opKeyWrite k s)
  | .fbRead => .next s

/-- What an operation issued in state `s` answers. -/
def answer (op : DriverOp) (s : State) : Answer :=
  match op with
  | .load bytes => if oversized bytes then .loadError else .done
  | .fbRead => .frame (fbOut s)
  | .reset => .done
  | .step _ => .done
  | .tick => .done
  | .keyWrite _ => .done

/-- A schedule: operations in the order the driver issues them, any interleaving (60_exceptions.md R139). -/
def driveAll : List DriverOp → State → Host.Outcome State Fault Refusal
  | [], s => .next s
  | op :: ops, s =>
    match drive op s with
    | .next t => driveAll ops t
    | .fault f => .fault f
    | .refused r => .refused r

end Sys2Proof.Machine
end

