-- ==== Sys2Proof/Machine/Ports.lean ====
section
/-! DEFINITION. The port-level binding of the external operations (spec/00_scope.md R4, decision D5; log 19): one request
at most in a cycle, no clock and no latency. -/

namespace Sys2Proof.Machine

/-- The input ports of one cycle (R4). -/
structure PortsIn where
  /-- `rst`: request `Reset`. -/
  rst : Bool
  /-- `step_req`: request `Step`. -/
  stepReq : Bool
  /-- `rnd_in`, sampled with `step_req`. -/
  rndIn : Byte
  /-- `tick_req`: request `Tick`. -/
  tickReq : Bool
  /-- `key_we`: request `KeyWrite(key_in)`. -/
  keyWe : Bool
  /-- `key_in`: bit `i` is key `i`. -/
  keyIn : BitVec 16
  /-- `load_req`: request `Load`. -/
  loadReq : Bool
  /-- `load_len`: how many bytes the image has. -/
  loadLen : BitVec 13
  /-- `load_data`: the stream of bytes. -/
  loadData : List Byte
  deriving DecidableEq, Repr

/-- The output ports (R4). -/
structure PortsOut where
  /-- `load_err`: the Load was rejected as oversized. -/
  loadErr : Bool
  /-- `fb_out`: bit `64*y + x` is pixel (x, y). -/
  fb : BitVec 2048
  /-- `fault`: the fault register. -/
  faultOut : BitVec 2
  /-- `waiting`: the key-wait latch is WaitingForRelease. -/
  waiting : Bool
  deriving DecidableEq, Repr

/-- The operations requested in a cycle. DESIGN CHOICE: where the stream is longer than `load_len`, the Load is of its first
`load_len` bytes and the surplus is dropped; R4 does not say (log 26). -/
def requests (p : PortsIn) : List DriverOp :=
  (if p.rst then [.reset] else []) ++ (if p.stepReq then [.step p.rndIn] else []) ++
  (if p.tickReq then [.tick] else []) ++ (if p.keyWe then [.keyWrite p.keyIn] else []) ++
  (if p.loadReq then [.load (p.loadData.take p.loadLen.toNat)] else [])

/-- The data stream of a `load_req` ends before `load_len` bytes. -/
def streamShort (p : PortsIn) : Bool := p.loadReq && decide (p.loadData.length < p.loadLen.toNat)

/-- One cycle: the one requested operation, or nothing. Two requests at once, and a data stream too short, are outside the
contract and refused by name (92_eei_decisions.md D26, 93_implementation_defined.md U9; log 19). -/
def portCycle (p : PortsIn) (s : State) : Host.Outcome State Fault Refusal :=
  match requests p with
  | [] => .next s
  | [op] => if streamShort p then .refused .loadStreamShort else drive op s
  | _ => .refused .simultaneousRequests

/-- `waiting`: 1 when the latch is WaitingForRelease (R4). -/
def waitingOut (s : State) : Bool := s.kw != .idle

/-- The outputs once a cycle has run: `p` is the cycle's inputs, `s` the state after it. DESIGN CHOICE: `load_err` is high in the
cycle of the rejected Load alone (log 19), and a stream longer than `load_len` is judged by `load_len` alone (log 26). -/
def portsOut (p : PortsIn) (s : State) : PortsOut where
  loadErr := p.loadReq && oversized (p.loadData.take p.loadLen.toNat)
  fb := fbOut s
  faultOut := s.fault
  waiting := waitingOut s

end Sys2Proof.Machine
end

