-- ==== Sys2Proof/Safety.lean ====
section
/-! DEFINITION. The terms the claims use: the invariant of the machine, what each instruction may write, where `pc` goes, and
what a sprite covers. No claim is proved here. -/

namespace Sys2Proof.Machine

/-- The invariant of every reachable state (spec/10_state.md R25, and what rules R123, R127, R131 to R134 add to it). -/
structure StateInv (s : State) : Prop where
  /-- Memory is in its canonical form. -/
  memory : Memory.wf s.mem = true
  /-- Code 3 is never produced (10_state.md R20). -/
  code : s.fault ≠ 3
  /-- StackOverflow is raised on a full stack, which then stays full (60_exceptions.md R131, R134). -/
  overflow : s.fault = 1 → s.sp = 16
  /-- StackUnderflow is raised on an empty stack, which then stays empty (60_exceptions.md R132, R134). -/
  underflow : s.fault = 2 → s.sp = 0
  /-- A waiting machine has no fault: nothing executes while it waits (44_keypad_timers.md R127). -/
  waiting : s.kw ≠ .idle → s.fault = 0
  /-- A waiting machine's destination register holds the key (44_keypad_timers.md R123, R127). -/
  latched : ∀ k d, s.kw = .waitingForRelease k d → s.getV d = k.setWidth 8

/-! The words outside the encodings (30_encoding.md R56) -/

/-- A word of family 0 that is neither CLS nor RET. -/
def unassignedIn0 (w : Word) : Prop := w.toNat / 4096 = 0 ∧ w.toNat % 4096 ∉ [0x0E0, 0x0EE]

/-- A hole of the sub-tables of families 8, E and F. -/
def unassignedIn8EF (w : Word) : Prop :=
  w.toNat / 4096 = 8 ∧ w.toNat % 16 ∈ [0x8, 0x9, 0xA, 0xB, 0xC, 0xD, 0xF] ∨
  w.toNat / 4096 = 14 ∧ w.toNat % 256 ∉ [0x9E, 0xA1] ∨
  w.toNat / 4096 = 15 ∧ w.toNat % 256 ∉ [0x07, 0x0A, 0x15, 0x18, 0x1E, 0x29, 0x33, 0x55, 0x65]

/-! What an instruction may write -/

/-- The instructions that write `VF` as a flag (10_state.md R11). -/
def definesFlag : Instr → Bool
  | .orReg _ _ | .andReg _ _ | .xorReg _ _ | .addReg _ _ | .subReg _ _ | .shrReg _ _ | .subnReg _ _ | .shlReg _ _ => true
  | .drw _ _ _ => true
  | _ => false

/-- The instructions with a destination register `V[X]`, and LD Vx,[I] with the range `V[0..X]` (10_state.md R10). -/
def destReg : Instr → Nibble → Bool
  | .ldImm x _, r | .addImm x _, r | .ldReg x _, r | .orReg x _, r | .andReg x _, r | .xorReg x _, r => r == x
  | .addReg x _, r | .subReg x _, r | .shrReg x _, r | .subnReg x _, r | .shlReg x _, r | .rnd x _, r => r == x
  | .ldVxDT x, r | .ldVxK x, r => r == x
  | .ldVxMem x, r => decide (r.toNat ≤ x.toNat)
  | _, _ => false

/-- The instruction may write register `r`. -/
def writesReg (i : Instr) (r : Nibble) : Bool := destReg i r || (definesFlag i && r == vf)

/-- The writers of `I` (10_state.md R12). -/
def writesI : Instr → Bool
  | .ldI _ | .addI _ | .ldF _ | .ldMemVx _ | .ldVxMem _ => true
  | _ => false

/-- The writers of the call stack (10_state.md R14). -/
def usesStack : Instr → Bool
  | .call _ | .ret => true
  | _ => false

/-- The writer of `DT` among the instructions (10_state.md R15). -/
def writesDT : Instr → Bool
  | .ldDTVx _ => true
  | _ => false

/-- The writer of `ST` among the instructions (10_state.md R16). -/
def writesST : Instr → Bool
  | .ldSTVx _ => true
  | _ => false

/-- The writers of the framebuffer (10_state.md R17). -/
def writesFB : Instr → Bool
  | .cls | .drw _ _ _ => true
  | _ => false

/-- The instruction that sets the key-wait latch (10_state.md R19). -/
def writesKW : Instr → Bool
  | .ldVxK _ => true
  | _ => false

/-- The instruction that consumes the random byte (41_alu.md R92). -/
def usesRandom : Instr → Bool
  | .rnd _ _ => true
  | _ => false

/-- How many bytes an instruction stores at `I`, `I + 1`, … (20_memory.md R36, R43). -/
def storeCount : Instr → Nat
  | .ldB _ => 3
  | .ldMemVx x => x.toNat + 1
  | _ => 0

/-- What an instruction run from `s` to `t` leaves unchanged. The bytes stored are those at `effAddr s k`, the address the
meanings compute, for `k` below `storeCount`; `pc` may change. -/
structure Frame (i : Instr) (s t : State) : Prop where
  /-- Every register but the destinations and, where a flag is defined, `VF`. -/
  registers : ∀ r, writesReg i r = false → t.getV r = s.getV r
  /-- `I`. -/
  index : writesI i = false → t.i = s.i
  /-- The stack pointer and every slot, for an instruction that is neither CALL nor RET. -/
  stack : usesStack i = false → t.sp = s.sp ∧ t.stack = s.stack
  /-- Every slot but the one at the stack pointer, for CALL and RET too. -/
  slots : ∀ j : Fin 16, j.val ≠ s.sp.val → t.stack[j] = s.stack[j]
  /-- The fault register, for an instruction that is neither CALL nor RET. -/
  fault : usesStack i = false → t.fault = s.fault
  /-- The timers. -/
  delay : writesDT i = false → t.dt = s.dt
  /-- See `delay`. -/
  sound : writesST i = false → t.st = s.st
  /-- Every pixel. -/
  pixels : writesFB i = false → t.fb = s.fb
  /-- The keypad latch: no instruction writes it (10_state.md R18). -/
  keys : t.keys = s.keys
  /-- The key-wait latch. -/
  latch : writesKW i = false → t.kw = s.kw
  /-- Every byte of memory that is not stored to. -/
  memory : ∀ a, (∀ k < storeCount i, mask12 a ≠ effAddr s k) → memRead t a = memRead s a
  /-- The model's own random input. -/
  random : usesRandom i = false → t.rnd = s.rnd ∧ t.draws = s.draws

/-- The families of the instruction files (spec 40 to 44). -/
inductive Family where
  | control | alu | index | display | keypad
  deriving DecidableEq, Repr

/-- The file of the spec that gives an instruction its meaning. -/
def familyOf : Instr → Family
  | .ret | .sys _ | .jp _ | .call _ | .seImm _ _ | .sneImm _ _ | .seReg _ _ _ | .sneReg _ _ _ | .jpV0 _ | .undef _ => .control
  | .ldImm _ _ | .addImm _ _ | .ldReg _ _ | .orReg _ _ | .andReg _ _ | .xorReg _ _ | .addReg _ _ | .subReg _ _ => .alu
  | .shrReg _ _ | .subnReg _ _ | .shlReg _ _ | .rnd _ _ => .alu
  | .ldI _ | .addI _ | .ldF _ | .ldB _ | .ldMemVx _ | .ldVxMem _ => .index
  | .cls | .drw _ _ _ => .display
  | .skp _ | .sknp _ | .ldVxDT _ | .ldVxK _ | .ldDTVx _ | .ldSTVx _ => .keypad

/-! Where `pc` goes (40_control_flow.md, the summary table) -/

/-- The instruction is a skip whose condition holds (40_control_flow.md R70 to R73, 44_keypad_timers.md R120, R121). -/
def skipTaken (s : State) : Instr → Prop
  | .seImm x nn => s.getV x = nn
  | .sneImm x nn => s.getV x ≠ nn
  | .seReg x y _ => s.getV x = s.getV y
  | .sneReg x y _ => s.getV x ≠ s.getV y
  | .skp x => s.keys.getLsbD ((s.getV x).toNat % 16) = true
  | .sknp x => s.keys.getLsbD ((s.getV x).toNat % 16) = false
  | _ => False

/-- `pc'` is a right program counter after an instruction fetched at `pc0` and run from `s`, modulo 65536. -/
def pcAllowed (s : State) (pc0 pc' : Nat) : Instr → Prop
  | .jp nnn => pc' = nnn.toNat
  | .jpV0 nnn => pc' = nnn.toNat + (s.getV 0).toNat
  | .call nnn => (s.sp.val < 16 → pc' = nnn.toNat) ∧ (s.sp.val = 16 → pc' = (pc0 + 2) % 65536)
  | .ret => (∀ j : Fin 16, s.sp.val = j.val + 1 → pc' = s.stack[j].toNat) ∧ (s.sp.val = 0 → pc' = (pc0 + 2) % 65536)
  | .ldVxK _ => (s.keys = 0 → pc' = pc0 % 65536) ∧ (s.keys ≠ 0 → pc' = (pc0 + 2) % 65536)
  | i => (skipTaken s i → pc' = (pc0 + 4) % 65536) ∧ (¬ skipTaken s i → pc' = (pc0 + 2) % 65536)

/-! Sprites (43_display.md R111, R112) -/

/-- The bit of an `n`-row sprite at `I` that falls on pixel (p, q) when its origin is (x0, y0): columns past 63 and rows past
31 do not exist, so a sprite clips. -/
def spriteBit (s : State) (x0 y0 n : Nat) (p : Fin 64) (q : Fin 32) : Bool :=
  decide (y0 ≤ q.val) && decide (q.val < y0 + n) && decide (x0 ≤ p.val) && decide (p.val < x0 + 8) &&
    (memRead s (s.i.toNat + (q.val - y0))).getLsbD (7 - (p.val - x0))

/-- DRW's sprite bit on pixel (p, q): the origin is `(V[x] mod 64, V[y] mod 32)`. -/
def drwBit (s : State) (x y n : Nibble) (p : Fin 64) (q : Fin 32) : Bool :=
  spriteBit s ((s.getV x).toNat % 64) ((s.getV y).toNat % 32) n.toNat p q

/-! Agreement up to what no program can observe -/

/-- The two states differ at most in bits 15:12 of `I`, of `pc` and of the stack entries (42_index_memory.md R106;
93_implementation_defined.md U19). -/
structure SameLow (s t : State) : Prop where
  registers : t.v = s.v
  index : t.i.toNat % 4096 = s.i.toNat % 4096
  counter : t.pc.toNat % 4096 = s.pc.toNat % 4096
  slots : ∀ j : Fin 16, t.stack[j].toNat % 4096 = s.stack[j].toNat % 4096
  pointer : t.sp = s.sp
  delay : t.dt = s.dt
  sound : t.st = s.st
  pixels : t.fb = s.fb
  keys : t.keys = s.keys
  latch : t.kw = s.kw
  fault : t.fault = s.fault
  memory : t.mem = s.mem
  random : t.rnd = s.rnd ∧ t.draws = s.draws

end Sys2Proof.Machine
end

