-- ==== Sys2Proof/Certificates/Slice0/Obligations.lean ====
section
/-! DEFINITION. The statements for the provers, each from numbered rules of spec/. A docstring names what the statement rests on
where that is a decision of the spec or general knowledge (a log entry), and not the source's own words. -/

open Sys2Proof Sys2Proof.Machine

/-! Encoding -/

/-- Decoding the word of a well-formed instruction gives the instruction back, every operand at every value.
The opcode numbers are general knowledge (GK1; log 4), the bits compared are decisions D12 to D14 (log 11), and that the
ignored nibble and an undefined word are operands is the model's choice (log 23). -/
def Obligations.DecodeOfEncodeIsIdentity : Prop :=
  ∀ i : Instr, i.wf = true → decodeWord (encode i) = i

/-- Every 16-bit word is the word of exactly one instruction (30_encoding.md, Dispatch; GK1, log 4; D12 to D14, log 11). That
`encode` gives back the words `5XYN`, `9XYN` and the undefined ones is the model's own choice to keep the bits they ignore in
the syntax (log 23). -/
def Obligations.EveryWordIsOneInstruction : Prop :=
  ∀ w : Word, (decodeWord w).wf = true ∧ encode (decodeWord w) = w ∧ ∀ i : Instr, i.wf = true → encode i = w → i = decodeWord w

/-- The two-level dispatch and the table-driven decoder of R49 agree on every word: the first row of the opcode table, by
decreasing number of mask bits, is the decoded instruction's row (GK1, log 4; D12 to D14, log 11). -/
def Obligations.DispatchAgreesWithOpcodeTable : Prop :=
  ∀ w : Word, (tableRowOf w).map (fun r => r.name) = some (decodeWord w).mnemonic

/-- The six fields of a word as quotients and remainders (30_encoding.md R47; the places of X and Y are GK1, log 4). -/
def Obligations.DecodedFieldsAreTheNibbles : Prop :=
  ∀ w : Word, (famOf w).toNat = w.toNat / 4096 ∧ (xOf w).toNat = w.toNat / 256 % 16 ∧ (yOf w).toNat = w.toNat / 16 % 16 ∧
    (nOf w).toNat = w.toNat % 16 ∧ (nnOf w).toNat = w.toNat % 256 ∧ (nnnOf w).toNat = w.toNat % 4096

/-- SYS is decoded exactly from the unassigned words of family 0 and UNDEF exactly from the holes of families 8, E and F (the
sets of 30_encoding.md R56, here by quotients and remainders), and all of them are no-ops (GK1, log 4; D12 to D14, log 11). -/
def Obligations.UndefinedWordsAreNoOps : Prop :=
  ∀ (w : Word) (s : State),
    (unassignedIn0 w ↔ ∃ nnn, decodeWord w = .sys nnn) ∧
    (unassignedIn8EF w ↔ ∃ u, decodeWord w = .undef u) ∧
    (unassignedIn0 w ∨ unassignedIn8EF w → exec (decodeWord w) s = .next s)

/-- An instruction's two bytes, high byte first, decode to it, whatever follows them; fewer than two bytes are refused by
name (20_memory.md R33; GK1, log 4). -/
def Obligations.DecodeReadsTwoBytesBigEndian : Prop :=
  (∀ (i : Instr) (rest : List Byte), i.wf = true → decode (wordBytes (encode i) ++ rest) = .ok (i, rest)) ∧
  decode [] = .error .truncated ∧ ∀ b : Byte, decode [b] = .error .truncated

/-- A few words written out from the encodings of 30_encoding.md R59: A2F0, D7A3, 8124, F30A, 00EE, 01E0, 5127, E19E, F155
(GK1, log 4; 01E0 and 5127 by decisions D12, D13, log 11). -/
def Obligations.SampleWordsDecode : Prop :=
  decodeWord 0xA2F0 = .ldI 0x2F0 ∧ decodeWord 0xD7A3 = .drw 7 0xA 3 ∧ decodeWord 0x8124 = .addReg 1 2 ∧
  decodeWord 0xF30A = .ldVxK 3 ∧ decodeWord 0x00EE = .ret ∧ decodeWord 0x01E0 = .sys 0x1E0 ∧
  decodeWord 0x5127 = .seReg 1 2 7 ∧ decodeWord 0xE19E = .skp 1 ∧ decodeWord 0xF155 = .ldMemVx 1

/-! Memory and fetch -/

/-- The memory primitives: the mask is `a & 0xFFF`, an address and its masked form are one location for reads and writes, a
byte written is the byte read there, and every other location keeps its byte (20_memory.md, The address translator). -/
def Obligations.MemoryMasksAndReadsBackWrites : Prop :=
  ∀ (s : State) (a a' : Nat) (b : Byte), mask12 a = a &&& 0xFFF ∧
    memRead s a = memRead s (a &&& 0xFFF) ∧ memWrite s a b = memWrite s (a &&& 0xFFF) b ∧
    (a' % 4096 ≠ a % 4096 → memRead (memWrite s a b) a' = memRead s a') ∧
    (Memory.wf s.mem = true → a' % 4096 = a % 4096 → memRead (memWrite s a b) a' = b)

/-- Instruction fetch is big-endian: the high byte from `pc & 0xFFF`, the low byte from `(pc + 1) & 0xFFF`
(20_memory.md R33). -/
def Obligations.FetchIsBigEndian : Prop :=
  ∀ s : State,
    (fetchWord s).toNat = 256 * (memRead s (s.pc.toNat &&& 0xFFF)).toNat + (memRead s ((s.pc.toNat + 1) &&& 0xFFF)).toNat

/-! The Step -/

/-- When the bytes at `pc` decode to an instruction and nothing suspends fetch, a Step is that instruction's meaning on the
state whose `pc` has moved past its two bytes (30_encoding.md, The Step operation; the fault test is decision D11, log 7; the
modulus of `pc` is D6, log 8). -/
def Obligations.StepRunsTheDecodedInstruction : Prop :=
  ∀ (s : State) (i : Instr), s.fault = 0 → s.kw = .idle →
    decode [memRead s s.pc.toNat, memRead s (s.pc.toNat + 1)] = .ok (i, []) →
    step s = exec i (s.setPc (s.pc + 2))

/-- A word placed by the host runs on the very next Step, from every state with a canonical memory (log 17). -/
def Obligations.PlacedWordRunsNext : Prop :=
  ∀ (s : State) (nbits w : Nat), Memory.wf s.mem = true →
    step (s.withFetchWord nbits w) = exec (decodeWord (tableWord nbits w)) ((s.withFetchWord nbits w).setPc (s.pc + 2))

/-- The wait check: a Step that finds the latch waiting only watches its key, and leaves `pc`, registers, memory, timers,
stack, framebuffer and the other keys alone (44_keypad_timers.md R127). -/
def Obligations.WaitCheckWatchesOneKey : Prop :=
  ∀ (s : State) (k d : Nibble), s.fault = 0 → s.kw = .waitingForRelease k d →
    step s = .next (if s.keys.getLsbD k.toNat then s else s.setKW .idle)

/-- After a fault a Step changes nothing; Tick, KeyWrite, Load and FbRead act as in a state without the fault, none clears it,
and Reset does. The sticky register is the spec's decision D11 (60_exceptions.md, Fault entry and what follows; log 7). -/
def Obligations.FaultStopsStepsUntilReset : Prop :=
  ∀ s : State, s.fault ≠ 0 →
    step s = .next s ∧
    (∀ op t, drive op s = .next t → op ≠ .reset → t.fault = s.fault) ∧
    (∀ bytes, ∃ t, drive (.load bytes) s = .next t ∧ drive (.load bytes) (s.setFault 0) = .next (t.setFault 0)) ∧
    (∃ t, drive .tick s = .next t ∧ drive .tick (s.setFault 0) = .next (t.setFault 0)) ∧
    (∀ k, ∃ t, drive (.keyWrite k) s = .next t ∧ drive (.keyWrite k) (s.setFault 0) = .next (t.setFault 0)) ∧
    drive .fbRead s = .next s ∧ answer .fbRead s = answer .fbRead (s.setFault 0) ∧
    ∃ t, drive .reset s = .next t ∧ t.fault = 0

/-- No Step, no instruction and no external operation ever stops the machine, from any state (70_reset_and_hazards.md, End of
a run: "the core never stops by itself"; that a stack fault is a next state is decisions D10, D11, log 7). -/
def Obligations.NothingStopsTheMachine : Prop :=
  (∀ s, ∃ t, step s = .next t) ∧ (∀ i s, ∃ t, exec i s = .next t) ∧ ∀ op s, ∃ t, drive op s = .next t

/-- Every Step keeps the invariant, from every state that meets it: canonical memory, fault code below 3, a full stack under
StackOverflow and an empty one under StackUnderflow, no fault while waiting, and the destination register of a waiting
machine holding the key (10_state.md, Invariants; D10, log 7; the canonical form is the model's, log 6). -/
def Obligations.StepKeepsInvariant : Prop :=
  ∀ s t : State, StateInv s → step s = .next t → StateInv t

/-- The state after reset meets the invariant (10_state.md, Invariants and Reset values; D4, log 5; log 6). -/
def Obligations.ResetMeetsInvariant : Prop := StateInv State.reset

/-- Every external operation keeps the invariant, so every schedule does (60_exceptions.md, Interrupts: the schedule is free;
D10, log 7; log 6). -/
def Obligations.EveryScheduleKeepsInvariant : Prop :=
  (∀ (op : DriverOp) (s t : State), StateInv s → drive op s = .next t → StateInv t) ∧
  ∀ (ops : List DriverOp) (s t : State), StateInv s → driveAll ops s = .next t → StateInv t

/-! Whole-machine rules -/

/-- The only instructions that raise are CALL on a full stack (code 1) and RET on an empty one (code 2); nothing but the fault
register is written then. The codes and the sticky register are decision D10 (60_exceptions.md, Faults; log 7). -/
def Obligations.OnlyCallAndRetRaise : Prop :=
  ∀ (i : Instr) (s t : State), exec i s = .next t →
    t.fault = s.fault ∨ ((∃ nnn, i = .call nnn) ∧ s.sp = 16 ∧ t = s.setFault 1) ∨ (i = .ret ∧ s.sp = 0 ∧ t = s.setFault 2)

/-- The summary table of 40_control_flow.md: where `pc` is after each instruction fetched at `pc0` (all sums modulo 65536,
decision D6, log 8; the slot RET reads is D8, log 9; the ignored nibble of SE and SNE is D13, log 11; a key index is masked by
D15, log 12; the faulting forms by D10, log 7). -/
def Obligations.ProgramCounterAfterEachInstruction : Prop :=
  ∀ (i : Instr) (s t : State) (pc0 : Word), exec i (s.setPc (pc0 + 2)) = .next t →
    pcAllowed s pc0.toNat t.pc.toNat i

/-- `VF` after a flag-defining instruction is 0 or 1, and 0 after OR, AND, XOR; every other instruction leaves it alone unless
its destination is register 15 (10_state.md, General registers; with X = 15 the flag wins by D9, log 10). -/
def Obligations.FlagRegisterIsZeroOrOne : Prop :=
  ∀ (i : Instr) (s t : State), exec i s = .next t →
    (definesFlag i = true → t.getV vf = 0 ∨ t.getV vf = 1) ∧
    ((∃ x y, i = .orReg x y ∨ i = .andReg x y ∨ i = .xorReg x y) → t.getV vf = 0) ∧
    (definesFlag i = false → destReg i vf = false → t.getV vf = s.getV vf)

/-- Which Steps write what: the keypad never; the framebuffer only CLS and DRW; the timers only their own instructions; the
latch only LD Vx,K or the wait check; the stack and the fault register only CALL and RET; memory only LD B and LD [I],Vx
(10_state.md R14 to R20, 20_memory.md R43, each in part; the fault register is decision D10, log 7). -/
def Obligations.StepsWriteOnlyTheirOwnState : Prop :=
  ∀ s t : State, step s = .next t →
    t.keys = s.keys ∧
    (t.fb ≠ s.fb → writesFB (decodeWord (fetchWord s)) = true) ∧
    (t.dt ≠ s.dt → writesDT (decodeWord (fetchWord s)) = true) ∧
    (t.st ≠ s.st → writesST (decodeWord (fetchWord s)) = true) ∧
    (t.kw ≠ s.kw → s.kw ≠ .idle ∨ writesKW (decodeWord (fetchWord s)) = true) ∧
    (t.sp ≠ s.sp ∨ t.stack ≠ s.stack ∨ t.fault ≠ s.fault → usesStack (decodeWord (fetchWord s)) = true) ∧
    (t.mem ≠ s.mem → storeCount (decodeWord (fetchWord s)) ≠ 0)

/-! Frames -/

/-- Control flow and the no-ops: what they leave unchanged (40_control_flow.md; the stack's slots are D8, log 9; the fault
register is D10, log 7). -/
def Obligations.ControlFlowFrame : Prop :=
  ∀ (i : Instr) (s t : State), familyOf i = .control → exec i s = .next t → Frame i s t

/-- Register, ALU and random instructions: what they leave unchanged (41_alu.md; the model's random input, log 1). -/
def Obligations.AluFrame : Prop :=
  ∀ (i : Instr) (s t : State), familyOf i = .alu → exec i s = .next t → Frame i s t ∧ t.pc = s.pc

/-- Index and memory instructions: what they leave unchanged; the bytes stored are those at `effAddr s k` (42_index_memory.md;
wrap by 20_memory.md, the address translator). -/
def Obligations.IndexMemoryFrame : Prop :=
  ∀ (i : Instr) (s t : State), familyOf i = .index → exec i s = .next t → Frame i s t ∧ t.pc = s.pc

/-- CLS and DRW: what they leave unchanged, every byte of memory and `I` among it (43_display.md). -/
def Obligations.DisplayFrame : Prop :=
  ∀ (i : Instr) (s t : State), familyOf i = .display → exec i s = .next t → Frame i s t ∧ t.pc = s.pc

/-- Keypad and timer instructions: what they leave unchanged (44_keypad_timers.md). -/
def Obligations.KeypadTimerFrame : Prop :=
  ∀ (i : Instr) (s t : State), familyOf i = .keypad → exec i s = .next t → Frame i s t

/-! Control flow -/

/-- SYS and the undefined words do nothing beyond the fetch advance (40_control_flow.md R65, R66). -/
def Obligations.NoOpsChangeNothing : Prop :=
  ∀ (s : State) (nnn : Addr) (w : Word), exec (.sys nnn) s = .next s ∧ exec (.undef w) s = .next s

/-- JP NNN: `pc` is NNN, zero-extended, and nothing else changes (40_control_flow.md R68). -/
def Obligations.JumpGoesToItsTarget : Prop :=
  ∀ (s : State) (nnn : Addr), ∃ t, exec (.jp nnn) s = .next t ∧ t.pc.toNat = nnn.toNat ∧ t = s.setPc t.pc

/-- JP V0,NNN: `pc` is the exact sum, at most 0x10FE, stored unmasked (40_control_flow.md, JP V0,NNN; decision D6, log 8). -/
def Obligations.JumpWithOffsetStoresTheSum : Prop :=
  ∀ (s : State) (nnn : Addr), ∃ t, exec (.jpV0 nnn) s = .next t ∧ t.pc.toNat = nnn.toNat + (s.getV 0).toNat ∧ t = s.setPc t.pc

/-- CALL: with room, the slot at `sp` holds the advanced `pc`, `sp` is one more and `pc` is NNN; on a full stack only the
fault register changes, to 1 (40_control_flow.md, CALL NNN; D8, log 9; D10, log 7). -/
def Obligations.CallPushesTheReturnAddress : Prop :=
  ∀ (s : State) (nnn : Addr), ∃ t, exec (.call nnn) s = .next t ∧
    (∀ j : Fin 16, s.sp.val = j.val → t.stack[j] = s.pc ∧ t.sp.val = s.sp.val + 1 ∧ t.pc.toNat = nnn.toNat ∧ t.fault = s.fault) ∧
    (s.sp.val = 16 → t = s.setFault 1)

/-- RET: from a nonempty stack, `pc` is the newest entry unmasked and `sp` is one less; from an empty one only the fault
register changes, to 2 (40_control_flow.md, RET; D8, log 9; D10, log 7). -/
def Obligations.ReturnPopsTheNewestEntry : Prop :=
  ∀ s : State, ∃ t, exec .ret s = .next t ∧
    (∀ j : Fin 16, s.sp.val = j.val + 1 → t.pc = s.stack[j] ∧ t.sp.val = j.val ∧ t.stack = s.stack ∧ t.fault = s.fault) ∧
    (s.sp.val = 0 → t = s.setFault 2)

/-- A RET undoes a CALL: it comes back to the address after the CALL with the pointer as before and no older entry changed
(40_control_flow.md, Helpers; D8, log 9). -/
def Obligations.ReturnComesBackFromCall : Prop :=
  ∀ (s : State) (nnn : Addr), s.sp.val < 16 → ∃ t u, exec (.call nnn) s = .next t ∧ exec .ret t = .next u ∧
    u.pc = s.pc ∧ u.sp = s.sp ∧ ∀ j : Fin 16, j.val < s.sp.val → u.stack[j] = s.stack[j]

/-- SE and SNE, with a byte and with a register: they skip on equal and on not equal, whatever the ignored nibble; a skip adds
2 modulo 65536 and changes nothing else (40_control_flow.md, Conditional skips; D13, log 11; the modulus is D6, log 8). -/
def Obligations.SkipsOnEqualAndNotEqual : Prop :=
  ∀ (s : State) (x y n : Nibble) (nn : Byte),
    exec (.seImm x nn) s = .next (s.setPc (if (s.getV x).toNat = nn.toNat then s.pc + 2 else s.pc)) ∧
    exec (.sneImm x nn) s = .next (s.setPc (if (s.getV x).toNat = nn.toNat then s.pc else s.pc + 2)) ∧
    exec (.seReg x y n) s = .next (s.setPc (if (s.getV x).toNat = (s.getV y).toNat then s.pc + 2 else s.pc)) ∧
    exec (.sneReg x y n) s = .next (s.setPc (if (s.getV x).toNat = (s.getV y).toNat then s.pc else s.pc + 2))

/-! Registers and ALU -/

/-- LD Vx,NN, ADD Vx,NN and LD Vx,Vy: the byte, the sum modulo 256, the old `V[y]` in `V[x]`; no other register changes, so
`VF` does not unless x is 15 (41_alu.md R81, R82, R83). -/
def Obligations.RegisterLoadsAndAddImmediate : Prop :=
  ∀ (s : State) (x y : Nibble) (nn : Byte), ∃ t u w, exec (.ldImm x nn) s = .next t ∧ exec (.addImm x nn) s = .next u ∧
    exec (.ldReg x y) s = .next w ∧
    t.getV x = nn ∧ (u.getV x).toNat = ((s.getV x).toNat + nn.toNat) % 256 ∧ w.getV x = s.getV y ∧
    ∀ r, r ≠ x → t.getV r = s.getV r ∧ u.getV r = s.getV r ∧ w.getV r = s.getV r

/-- OR, AND, XOR: the result of the old operands in `V[x]`, `VF` cleared last, no other register changed (41_alu.md, Logical;
x = 15 by D9, log 10). -/
def Obligations.LogicalOperationsClearFlag : Prop :=
  ∀ (s : State) (x y : Nibble), ∃ o a e, exec (.orReg x y) s = .next o ∧ exec (.andReg x y) s = .next a ∧
    exec (.xorReg x y) s = .next e ∧ ∀ r,
    o.getV r = (if r = vf then 0 else if r = x then s.getV x ||| s.getV y else s.getV r) ∧
    a.getV r = (if r = vf then 0 else if r = x then s.getV x &&& s.getV y else s.getV r) ∧
    e.getV r = (if r = vf then 0 else if r = x then s.getV x ^^^ s.getV y else s.getV r)

/-- ADD Vx,Vy: the sum modulo 256 in `V[x]`, `VF` last, 1 exactly if the sum exceeds 255 (41_alu.md, Arithmetic; x = 15 by
D9, log 10). -/
def Obligations.AddSetsCarry : Prop :=
  ∀ (s : State) (x y : Nibble), ∃ t, exec (.addReg x y) s = .next t ∧
    (t.getV vf).toNat = ((s.getV x).toNat + (s.getV y).toNat) / 256 ∧
    (x ≠ vf → (t.getV x).toNat = ((s.getV x).toNat + (s.getV y).toNat) % 256) ∧
    ∀ r, r ≠ x → r ≠ vf → t.getV r = s.getV r

/-- SUB and SUBN: the difference modulo 256 in `V[x]`, `VF` last, 1 exactly if there is no borrow, equality included
(41_alu.md, Arithmetic; x = 15 by D9, log 10). -/
def Obligations.SubtractionsSetNoBorrow : Prop :=
  ∀ (s : State) (x y : Nibble), ∃ t u, exec (.subReg x y) s = .next t ∧ exec (.subnReg x y) s = .next u ∧
    t.getV vf = (if (s.getV y).toNat ≤ (s.getV x).toNat then 1 else 0) ∧
    u.getV vf = (if (s.getV x).toNat ≤ (s.getV y).toNat then 1 else 0) ∧
    (x ≠ vf → ((t.getV x).toNat : Int) = ((s.getV x).toNat - (s.getV y).toNat : Int) % 256 ∧
      ((u.getV x).toNat : Int) = ((s.getV y).toNat - (s.getV x).toNat : Int) % 256) ∧
    ∀ r, r ≠ x → r ≠ vf → t.getV r = s.getV r ∧ u.getV r = s.getV r

/-- SHR and SHL: half and double of the old `V[y]`, not of `V[x]`, and the bit shifted out in `VF`, last (41_alu.md, Shifts;
x = 15 by D9, log 10). -/
def Obligations.ShiftsReadVy : Prop :=
  ∀ (s : State) (x y : Nibble), ∃ t u, exec (.shrReg x y) s = .next t ∧ exec (.shlReg x y) s = .next u ∧
    (t.getV vf).toNat = (s.getV y).toNat % 2 ∧ (u.getV vf).toNat = (s.getV y).toNat / 128 ∧
    (x ≠ vf → (t.getV x).toNat = (s.getV y).toNat / 2 ∧ (u.getV x).toNat = (s.getV y).toNat * 2 % 256) ∧
    ∀ r, r ≠ x → r ≠ vf → t.getV r = s.getV r ∧ u.getV r = s.getV r

/-- RND: `V[x]` is the random byte masked with NN, the byte the driver presented where it did, and no other register changes;
and the driver's `Step(b)` that fetches RND leaves `b & NN` in `V[x]`. That the byte is the Step's argument is decision D20
(41_alu.md, Random; log 1; the fault test is D11, log 7; the modulus of `pc` is D6, log 8). -/
def Obligations.RandomIsMasked : Prop :=
  ∀ (s : State) (x : Nibble) (nn : Byte), ∃ t, exec (.rnd x nn) s = .next t ∧
    t.getV x = randomByte s &&& nn ∧ (∀ b, s.rnd = some b → t.getV x = b &&& nn) ∧ (∀ r, r ≠ x → t.getV r = s.getV r) ∧
    ∀ b, s.fault = 0 → s.kw = .idle → decodeWord (fetchWord s) = .rnd x nn → ∃ u, drive (.step b) s = .next u ∧
      u.getV x = b &&& nn ∧ (∀ r, r ≠ x → u.getV r = s.getV r) ∧ u.pc = s.pc + 2

/-- No other instruction's effect depends on the random byte, and a `Step` that fetches another instruction, or none, ends in
the same state whatever byte it is given (41_alu.md, Random; D20, log 1; a Step after a fault is D11, log 7). -/
def Obligations.OnlyRndReadsTheRandomByte : Prop :=
  (∀ (i : Instr) (s : State) (b : Option Byte) (n : Nat), usesRandom i = false → ∃ t, exec i s = .next t ∧
    exec i (s.setRandom b n) = .next (t.setRandom b n)) ∧
  ∀ (s : State) (b c : Byte), usesRandom (decodeWord (fetchWord s)) = false ∨ s.fault ≠ 0 ∨ s.kw ≠ .idle →
    drive (.step b) s = drive (.step c) s

/-! Index and memory -/

/-- LD I,NNN and ADD I,Vx: NNN zero-extended, and the sum modulo 4096; nothing but `I` changes, `VF` included
(42_index_memory.md R100, R101). -/
def Obligations.LoadAndAddToIndex : Prop :=
  ∀ (s : State) (x : Nibble) (nnn : Addr), ∃ t u, exec (.ldI nnn) s = .next t ∧ exec (.addI x) s = .next u ∧
    t.i.toNat = nnn.toNat ∧ t = s.setI t.i ∧
    u.i.toNat = (s.i.toNat + (s.getV x).toNat) % 4096 ∧ u = s.setI u.i

/-- LD F,Vx: the glyph table's base plus five times the whole byte, no nibble mask, nothing but `I` changes
(42_index_memory.md, LD F,Vx; D19, log 16; the base is a parameter, log 3). -/
def Obligations.GlyphAddress : Prop :=
  ∀ (s : State) (x : Nibble), ∃ t, exec (.ldF x) s = .next t ∧ t.i.toNat = Config.glyphBase + 5 * (s.getV x).toNat ∧
    t = s.setI t.i

/-- LD B,Vx: the three decimal digits at `I`, `I + 1`, `I + 2`, masked, every other byte as before, `I` and every register kept,
`VF` among them (42_index_memory.md R103). -/
def Obligations.BcdStoresThreeDigits : Prop :=
  ∀ (s : State) (x : Nibble), Memory.wf s.mem = true → ∃ t, exec (.ldB x) s = .next t ∧ t.i = s.i ∧ t.v = s.v ∧
    (memRead t s.i.toNat).toNat = (s.getV x).toNat / 100 ∧
    (memRead t (s.i.toNat + 1)).toNat = (s.getV x).toNat / 10 % 10 ∧
    (memRead t (s.i.toNat + 2)).toNat = (s.getV x).toNat % 10 ∧
    ∀ a, (∀ k < 3, a % 4096 ≠ (s.i.toNat + k) % 4096) → memRead t a = memRead s a

/-- LD [I],Vx: registers 0 to x stand in memory from `I` up, masked, every other byte as before, registers kept, and `I` grows
by x + 1 modulo 65536 (42_index_memory.md, LD [I],Vx; D16, log 13; D17, log 14). -/
def Obligations.DumpStoresRegistersAndAdvances : Prop :=
  ∀ (s : State) (x : Nibble), Memory.wf s.mem = true → ∃ t, exec (.ldMemVx x) s = .next t ∧
    (∀ r : Nibble, r.toNat ≤ x.toNat → memRead t (s.i.toNat + r.toNat) = s.getV r) ∧
    (∀ a, (∀ k ≤ x.toNat, a % 4096 ≠ (s.i.toNat + k) % 4096) → memRead t a = memRead s a) ∧
    t.v = s.v ∧ t.i.toNat = (s.i.toNat + x.toNat + 1) % 65536

/-- LD Vx,[I]: registers 0 to x hold memory from `I` up, masked, the other registers and memory kept, and `I` grows by x + 1
modulo 65536 (42_index_memory.md, LD Vx,[I]; D16, log 13; D17, log 14). -/
def Obligations.LoadReadsRegistersAndAdvances : Prop :=
  ∀ (s : State) (x : Nibble), ∃ t, exec (.ldVxMem x) s = .next t ∧
    (∀ r : Nibble, t.getV r = if r.toNat ≤ x.toNat then memRead s (s.i.toNat + r.toNat) else s.getV r) ∧
    t.mem = s.mem ∧ t.i.toNat = (s.i.toNat + x.toNat + 1) % 65536

/-- Bits 15:12 of `I`, `pc` and the stack entries cannot be observed: two states that differ at most there step to two that
differ at most there (42_index_memory.md, The stored width of I; 93_implementation_defined.md U19; D6, log 8; D16, log 13). -/
def Obligations.UpperAddressBitsUnobservable : Prop :=
  ∀ s t s' : State, SameLow s t → step s = .next s' → ∃ t', step t = .next t' ∧ SameLow s' t'

/-! Display -/

/-- CLS: every pixel is 0 and nothing else changes, `VF` included (43_display.md R110). -/
def Obligations.ClearScreen : Prop :=
  ∀ s : State, ∃ t, exec .cls s = .next t ∧ (∀ p q, pixel t p q = false) ∧ t = s.setFB t.fb

/-- DRW: each pixel is XORed with the sprite bit that falls on it, the origin wraps and the sprite clips; `VF` is 1 if a set
pixel is under a set sprite bit inside the screen and else 0, whatever it was; no other register changes (43_display.md, DRW;
x or y = 15 by D9, log 10). -/
def Obligations.DrawXorsTheSpriteAndReportsCollision : Prop :=
  ∀ (s : State) (x y n : Nibble), ∃ t, exec (.drw x y n) s = .next t ∧
    (∀ p q, pixel t p q = (pixel s p q ^^ drwBit s x y n p q)) ∧
    (t.getV vf = 1 ↔ ∃ p q, pixel s p q = true ∧ drwBit s x y n p q = true) ∧ (t.getV vf = 0 ∨ t.getV vf = 1) ∧
    ∀ r, r ≠ vf → t.getV r = s.getV r

/-- Drawing the same sprite twice at the same origin restores the framebuffer, and the second draw reports a collision exactly
if some sprite bit inside the screen fell on a clear pixel the first time. This is the pseudocode of 43_display.md, DRW; its
corner-case sentence says a collision whenever some sprite bit is inside the screen, and that the model follows the
pseudocode is its own choice (log 27). -/
def Obligations.DrawingTwiceRestores : Prop :=
  ∀ (s : State) (x y n : Nibble), x ≠ vf → y ≠ vf → ∃ t u, exec (.drw x y n) s = .next t ∧ exec (.drw x y n) t = .next u ∧
    u.fb = s.fb ∧ (u.getV vf = 1 ↔ ∃ p q, pixel s p q = false ∧ drwBit s x y n p q = true)

/-- FbRead: bit `64*y + x` of the snapshot is pixel (x, y), and no state changes. The order of pixels is decision D24
(43_display.md, Framebuffer read; log 20). -/
def Obligations.FramebufferReadIsRowMajor : Prop :=
  ∀ s : State, drive .fbRead s = .next s ∧ answer .fbRead s = .frame (fbOut s) ∧
    ∀ (p : Fin 64) (q : Fin 32), (fbOut s).getLsbD (64 * q.val + p.val) = pixel s p q

/-! Keypad and timers -/

/-- SKP and SKNP skip when the key `V[x] & 0xF` is pressed and when it is not; nothing but `pc` changes (44_keypad_timers.md,
Skips on keys; the mask is D15, log 12; the modulus of `pc` is D6, log 8). -/
def Obligations.SkipsOnKey : Prop :=
  ∀ (s : State) (x : Nibble),
    exec (.skp x) s = .next (s.setPc (if s.keys.getLsbD ((s.getV x).toNat % 16) then s.pc + 2 else s.pc)) ∧
    exec (.sknp x) s = .next (s.setPc (if s.keys.getLsbD ((s.getV x).toNat % 16) then s.pc else s.pc + 2))

/-- LD Vx,DT, LD DT,Vx and LD ST,Vx copy between a register and a timer and change nothing else, and the next Tick decrements
from the new value (44_keypad_timers.md R122, R124, R125). -/
def Obligations.TimerTransfers : Prop :=
  ∀ (s : State) (x : Nibble), ∃ t u w, exec (.ldVxDT x) s = .next t ∧ exec (.ldDTVx x) s = .next u ∧
    exec (.ldSTVx x) s = .next w ∧ (∀ r, t.getV r = if r = x then s.dt else s.getV r) ∧ t = s.setV x s.dt ∧
    u.dt = s.getV x ∧ u = s.setDT u.dt ∧ (∃ u', drive .tick u = .next u' ∧ u'.dt.toNat = (s.getV x).toNat - 1) ∧
    w.st = s.getV x ∧ w = s.setST w.st ∧ ∃ w', drive .tick w = .next w' ∧ w'.st.toNat = (s.getV x).toNat - 1

/-- LD Vx,K with a key pressed: the lowest pressed index goes to `V[x]` at once and the latch waits for its release, `pc` not
rewound; with none pressed the instruction runs again: only `pc` changes, by -2 (44_keypad_timers.md R123). -/
def Obligations.AwaitKeyTakesTheLowestKey : Prop :=
  ∀ (s : State) (x : Nibble), ∃ t, exec (.ldVxK x) s = .next t ∧
    (s.keys = 0 → t = s.setPc (s.pc - 2)) ∧
    (∀ k : Nibble, s.keys.getLsbD k.toNat = true → (∀ j < k.toNat, s.keys.getLsbD j = false) →
      t = (s.setV x (k.setWidth 8)).setKW (.waitingForRelease k x))

/-- The sound timer affects no Step beyond itself: a Step from a state that differs in `ST` alone ends in one that differs in
`ST` alone (60_exceptions.md, Timers and counters; decision D25, log 21). -/
def Obligations.SoundTimerAffectsNothing : Prop :=
  ∀ (s t : State) (b : Byte), step s = .next t → ∃ c, step (s.setST b) = .next (t.setST c)

/-! The external operations -/

/-- Tick: each timer goes down by exactly 1 while above 0 and stays at 0, and nothing else changes, in every state
(60_exceptions.md R137). -/
def Obligations.TickDecrementsAndClamps : Prop :=
  ∀ s : State, ∃ t, drive .tick s = .next t ∧ t.dt.toNat = s.dt.toNat - 1 ∧ t.st.toNat = s.st.toNat - 1 ∧
    t = (s.setDT t.dt).setST t.st

/-- KeyWrite overwrites the whole latch and nothing else, in every state (60_exceptions.md R138). -/
def Obligations.KeyWriteOverwritesTheLatch : Prop :=
  ∀ (s : State) (k : BitVec 16), ∃ t, drive (.keyWrite k) s = .next t ∧
    (∀ j : Nibble, keyDown t j = k.getLsbD j.toNat) ∧ t = s.setKeys t.keys

/-- Load: an image that fits stands at LOAD_OFFSET byte for byte, every other byte as before, nothing but memory changed; one
that does not is an error and changes nothing (70_reset_and_hazards.md R152, R153). -/
def Obligations.LoadCopiesOrFails : Prop :=
  ∀ (s : State) (bytes : List Byte), Memory.wf s.mem = true → ∃ t, drive (.load bytes) s = .next t ∧ t = s.setMem t.mem ∧
    (bytes.length ≤ 4096 - Config.loadOffset → answer (.load bytes) s = .done ∧
      (∀ j (h : j < bytes.length), memRead t (Config.loadOffset + j) = bytes[j]) ∧
      ∀ a < 4096, (a < Config.loadOffset ∨ Config.loadOffset + bytes.length ≤ a) → memRead t a = memRead s a) ∧
    (bytes.length > 4096 - Config.loadOffset → answer (.load bytes) s = .loadError ∧ t = s)

/-- Reset, from every state: `pc` at LOAD_OFFSET, the glyph table at GLYPH_BASE and 0 elsewhere in memory, everything else 0,
empty or idle (10_state.md, Reset values; the zeros are D4, log 5; the parameters are log 2 and log 3). -/
def Obligations.ResetValues : Prop :=
  ∀ s : State, ∃ t, drive .reset s = .next t ∧ t.pc.toNat = Config.loadOffset ∧
    (∀ j (h : j < Config.glyphData.length), memRead t (Config.glyphBase + j) = Config.glyphData[j]) ∧
    (∀ a < 4096, (a < Config.glyphBase ∨ Config.glyphBase + 80 ≤ a) → memRead t a = 0) ∧
    (∀ r, t.getV r = 0) ∧ t.i = 0 ∧ t.sp = 0 ∧ (∀ j : Fin 16, t.stack[j] = 0) ∧ t.dt = 0 ∧ t.st = 0 ∧
    (∀ p q, pixel t p q = false) ∧ t.keys = 0 ∧ t.kw = .idle ∧ t.fault = 0

/-- The port binding: no request changes nothing, one request is its operation, two are refused by name. A load request is
`Load` of the first `load_len` bytes of its stream, and one whose stream is shorter is refused (00_scope.md, Agents and
interface; decisions D5, D26, log 19). That a surplus is dropped, and a short stream refused, is the model's choice (log 26,
log 19). -/
def Obligations.PortsIssueOneOperation : Prop :=
  ∀ (p : PortsIn) (s : State),
    (requests p = [] → portCycle p s = .next s) ∧
    (p.rst = true → p.stepReq = false → p.tickReq = false → p.keyWe = false → p.loadReq = false →
      portCycle p s = drive .reset s) ∧
    (p.rst = false → p.stepReq = true → p.tickReq = false → p.keyWe = false → p.loadReq = false →
      portCycle p s = drive (.step p.rndIn) s) ∧
    (p.rst = false → p.stepReq = false → p.tickReq = true → p.keyWe = false → p.loadReq = false →
      portCycle p s = drive .tick s) ∧
    (p.rst = false → p.stepReq = false → p.tickReq = false → p.keyWe = true → p.loadReq = false →
      portCycle p s = drive (.keyWrite p.keyIn) s) ∧
    (p.rst = false → p.stepReq = false → p.tickReq = false → p.keyWe = false → p.loadReq = true →
      (p.loadLen.toNat ≤ p.loadData.length → portCycle p s = drive (.load (p.loadData.take p.loadLen.toNat)) s) ∧
      (p.loadLen.toNat > p.loadData.length → portCycle p s = .refused .loadStreamShort)) ∧
    ((requests p).length ≥ 2 → portCycle p s = .refused .simultaneousRequests)

/-- The output ports: `fault` is the fault register, `waiting` is 1 when the latch is WaitingForRelease, bit `64*y + x` of
`fb_out` is pixel (x, y), and `load_err` is 1 when the requested Load is rejected as oversized (00_scope.md, Agents and
interface; decisions D5, D24, log 19, log 20). That `load_err` is high in that cycle alone is the model's choice (log 19),
and so is that a stream longer than `load_len` is judged by `load_len` alone (log 26). -/
def Obligations.PortOutputsShowTheState : Prop :=
  ∀ (p : PortsIn) (s : State),
    (portsOut p s).faultOut = s.fault ∧
    ((portsOut p s).waiting = true ↔ ∃ k d, s.kw = .waitingForRelease k d) ∧
    (∀ (x : Fin 64) (y : Fin 32), (portsOut p s).fb.getLsbD (64 * y.val + x.val) = pixel s x y) ∧
    (p.loadReq = false → (portsOut p s).loadErr = false) ∧
    (p.loadReq = true → p.loadLen.toNat ≤ p.loadData.length →
      ((portsOut p s).loadErr = true ↔ p.loadLen.toNat > 4096 - Config.loadOffset))
end

