-- ==== Sys2Proof/Laws/Decode.lean ====
section
/-! SUPPORT. The fields of a word that is written as its fields (spec/30_encoding.md R47, R48), and such a word under the masks
of the opcode table. -/

namespace Sys2Proof

section Fields

variable (f x y n : Nibble) (nn : Byte) (nnn : Addr)

/-- A word of four nibbles as a number. -/
theorem toNat_nibbles : (f ++ x ++ y ++ n : Word).toNat = f.toNat * 4096 + x.toNat * 256 + y.toNat * 16 + n.toNat := by
  simp only [BitVec.toNat_append]
  rw [← Nat.shiftLeft_add_eq_or_of_lt n.isLt, ← Nat.shiftLeft_add_eq_or_of_lt y.isLt,
    ← Nat.shiftLeft_add_eq_or_of_lt x.isLt]
  simp only [Nat.shiftLeft_eq]
  omega

/-- A word of two nibbles and a byte as a number. -/
theorem toNat_nibblesByte : (f ++ x ++ nn : Word).toNat = f.toNat * 4096 + x.toNat * 256 + nn.toNat := by
  simp only [BitVec.toNat_append]
  rw [← Nat.shiftLeft_add_eq_or_of_lt nn.isLt, ← Nat.shiftLeft_add_eq_or_of_lt x.isLt]
  simp only [Nat.shiftLeft_eq]
  omega

/-- A word of a nibble and an address as a number. -/
theorem toNat_nibbleAddr : (f ++ nnn : Word).toNat = f.toNat * 4096 + nnn.toNat := by
  simp only [BitVec.toNat_append]
  rw [← Nat.shiftLeft_add_eq_or_of_lt nnn.isLt]
  simp only [Nat.shiftLeft_eq]

/-- The family and register masks of the opcode table on a word of four nibbles. -/
theorem nibbles_mask_F000 : (f ++ x ++ y ++ n : Word) &&& 0xF000 = f ++ 0#12 := by
  ext i hi
  simp only [BitVec.getElem_and, BitVec.getElem_append]
  interval_cases i <;> simp

theorem nibbles_mask_F00F : (f ++ x ++ y ++ n : Word) &&& 0xF00F = f ++ 0#8 ++ n := by
  ext i hi
  simp only [BitVec.getElem_and, BitVec.getElem_append]
  interval_cases i <;> simp

theorem nibblesByte_mask_F000 : (f ++ x ++ nn : Word) &&& 0xF000 = f ++ 0#12 := by
  ext i hi
  simp only [BitVec.getElem_and, BitVec.getElem_append]
  interval_cases i <;> simp

theorem nibblesByte_mask_F0FF : (f ++ x ++ nn : Word) &&& 0xF0FF = f ++ 0#4 ++ nn := by
  ext i hi
  simp only [BitVec.getElem_and, BitVec.getElem_append]
  interval_cases i <;> simp

theorem nibbleAddr_mask_F000 : (f ++ nnn : Word) &&& 0xF000 = f ++ 0#12 := by
  ext i hi
  simp only [BitVec.getElem_and, BitVec.getElem_append]
  interval_cases i <;> simp

end Fields

end Sys2Proof
end

