-- ==== Sys2Proof/Laws/State.lean ====
section
/-! SUPPORT. One lemma for each field of `State` under each update of Machine/Ops.lean, so that no later proof unfolds an
update; and what reading a register or a pixel gives after each. -/

namespace Sys2Proof.Machine

variable (s : State)

/-! `setV` -/

@[simp] theorem State.setV_v (x : Nibble) (b : Byte) : (s.setV x b).v = s.v.set x.toNat b x.isLt := rfl
@[simp] theorem State.setV_i (x : Nibble) (b : Byte) : (s.setV x b).i = s.i := rfl
@[simp] theorem State.setV_pc (x : Nibble) (b : Byte) : (s.setV x b).pc = s.pc := rfl
@[simp] theorem State.setV_stack (x : Nibble) (b : Byte) : (s.setV x b).stack = s.stack := rfl
@[simp] theorem State.setV_sp (x : Nibble) (b : Byte) : (s.setV x b).sp = s.sp := rfl
@[simp] theorem State.setV_dt (x : Nibble) (b : Byte) : (s.setV x b).dt = s.dt := rfl
@[simp] theorem State.setV_st (x : Nibble) (b : Byte) : (s.setV x b).st = s.st := rfl
@[simp] theorem State.setV_fb (x : Nibble) (b : Byte) : (s.setV x b).fb = s.fb := rfl
@[simp] theorem State.setV_keys (x : Nibble) (b : Byte) : (s.setV x b).keys = s.keys := rfl
@[simp] theorem State.setV_kw (x : Nibble) (b : Byte) : (s.setV x b).kw = s.kw := rfl
@[simp] theorem State.setV_fault (x : Nibble) (b : Byte) : (s.setV x b).fault = s.fault := rfl
@[simp] theorem State.setV_mem (x : Nibble) (b : Byte) : (s.setV x b).mem = s.mem := rfl
@[simp] theorem State.setV_rnd (x : Nibble) (b : Byte) : (s.setV x b).rnd = s.rnd := rfl
@[simp] theorem State.setV_draws (x : Nibble) (b : Byte) : (s.setV x b).draws = s.draws := rfl
@[simp] theorem State.setV_pixel (x : Nibble) (b : Byte) (p : Fin 64) (q : Fin 32) : pixel (s.setV x b) p q = pixel s p q := rfl

/-! `setI` -/

@[simp] theorem State.setI_v (a : Word) : (s.setI a).v = s.v := rfl
@[simp] theorem State.setI_i (a : Word) : (s.setI a).i = a := rfl
@[simp] theorem State.setI_pc (a : Word) : (s.setI a).pc = s.pc := rfl
@[simp] theorem State.setI_stack (a : Word) : (s.setI a).stack = s.stack := rfl
@[simp] theorem State.setI_sp (a : Word) : (s.setI a).sp = s.sp := rfl
@[simp] theorem State.setI_dt (a : Word) : (s.setI a).dt = s.dt := rfl
@[simp] theorem State.setI_st (a : Word) : (s.setI a).st = s.st := rfl
@[simp] theorem State.setI_fb (a : Word) : (s.setI a).fb = s.fb := rfl
@[simp] theorem State.setI_keys (a : Word) : (s.setI a).keys = s.keys := rfl
@[simp] theorem State.setI_kw (a : Word) : (s.setI a).kw = s.kw := rfl
@[simp] theorem State.setI_fault (a : Word) : (s.setI a).fault = s.fault := rfl
@[simp] theorem State.setI_mem (a : Word) : (s.setI a).mem = s.mem := rfl
@[simp] theorem State.setI_rnd (a : Word) : (s.setI a).rnd = s.rnd := rfl
@[simp] theorem State.setI_draws (a : Word) : (s.setI a).draws = s.draws := rfl
@[simp] theorem State.setI_getV (a : Word) (r : Nibble) : (s.setI a).getV r = s.getV r := rfl
@[simp] theorem State.setI_pixel (a : Word) (p : Fin 64) (q : Fin 32) : pixel (s.setI a) p q = pixel s p q := rfl

/-! `setPc` -/

@[simp] theorem State.setPc_v (a : Word) : (s.setPc a).v = s.v := rfl
@[simp] theorem State.setPc_i (a : Word) : (s.setPc a).i = s.i := rfl
@[simp] theorem State.setPc_pc (a : Word) : (s.setPc a).pc = a := rfl
@[simp] theorem State.setPc_stack (a : Word) : (s.setPc a).stack = s.stack := rfl
@[simp] theorem State.setPc_sp (a : Word) : (s.setPc a).sp = s.sp := rfl
@[simp] theorem State.setPc_dt (a : Word) : (s.setPc a).dt = s.dt := rfl
@[simp] theorem State.setPc_st (a : Word) : (s.setPc a).st = s.st := rfl
@[simp] theorem State.setPc_fb (a : Word) : (s.setPc a).fb = s.fb := rfl
@[simp] theorem State.setPc_keys (a : Word) : (s.setPc a).keys = s.keys := rfl
@[simp] theorem State.setPc_kw (a : Word) : (s.setPc a).kw = s.kw := rfl
@[simp] theorem State.setPc_fault (a : Word) : (s.setPc a).fault = s.fault := rfl
@[simp] theorem State.setPc_mem (a : Word) : (s.setPc a).mem = s.mem := rfl
@[simp] theorem State.setPc_rnd (a : Word) : (s.setPc a).rnd = s.rnd := rfl
@[simp] theorem State.setPc_draws (a : Word) : (s.setPc a).draws = s.draws := rfl
@[simp] theorem State.setPc_getV (a : Word) (r : Nibble) : (s.setPc a).getV r = s.getV r := rfl
@[simp] theorem State.setPc_pixel (a : Word) (p : Fin 64) (q : Fin 32) : pixel (s.setPc a) p q = pixel s p q := rfl

/-! `setStack` -/

@[simp] theorem State.setStack_v (k : Vector Word 16) (n : Fin 17) : (s.setStack k n).v = s.v := rfl
@[simp] theorem State.setStack_i (k : Vector Word 16) (n : Fin 17) : (s.setStack k n).i = s.i := rfl
@[simp] theorem State.setStack_pc (k : Vector Word 16) (n : Fin 17) : (s.setStack k n).pc = s.pc := rfl
@[simp] theorem State.setStack_stack (k : Vector Word 16) (n : Fin 17) : (s.setStack k n).stack = k := rfl
@[simp] theorem State.setStack_sp (k : Vector Word 16) (n : Fin 17) : (s.setStack k n).sp = n := rfl
@[simp] theorem State.setStack_dt (k : Vector Word 16) (n : Fin 17) : (s.setStack k n).dt = s.dt := rfl
@[simp] theorem State.setStack_st (k : Vector Word 16) (n : Fin 17) : (s.setStack k n).st = s.st := rfl
@[simp] theorem State.setStack_fb (k : Vector Word 16) (n : Fin 17) : (s.setStack k n).fb = s.fb := rfl
@[simp] theorem State.setStack_keys (k : Vector Word 16) (n : Fin 17) : (s.setStack k n).keys = s.keys := rfl
@[simp] theorem State.setStack_kw (k : Vector Word 16) (n : Fin 17) : (s.setStack k n).kw = s.kw := rfl
@[simp] theorem State.setStack_fault (k : Vector Word 16) (n : Fin 17) : (s.setStack k n).fault = s.fault := rfl
@[simp] theorem State.setStack_mem (k : Vector Word 16) (n : Fin 17) : (s.setStack k n).mem = s.mem := rfl
@[simp] theorem State.setStack_rnd (k : Vector Word 16) (n : Fin 17) : (s.setStack k n).rnd = s.rnd := rfl
@[simp] theorem State.setStack_draws (k : Vector Word 16) (n : Fin 17) : (s.setStack k n).draws = s.draws := rfl
@[simp] theorem State.setStack_getV (k : Vector Word 16) (n : Fin 17) (r : Nibble) : (s.setStack k n).getV r = s.getV r := rfl
@[simp] theorem State.setStack_pixel (k : Vector Word 16) (n : Fin 17) (p : Fin 64) (q : Fin 32) : pixel (s.setStack k n) p q = pixel s p q := rfl

/-! `setDT` -/

@[simp] theorem State.setDT_v (b : Byte) : (s.setDT b).v = s.v := rfl
@[simp] theorem State.setDT_i (b : Byte) : (s.setDT b).i = s.i := rfl
@[simp] theorem State.setDT_pc (b : Byte) : (s.setDT b).pc = s.pc := rfl
@[simp] theorem State.setDT_stack (b : Byte) : (s.setDT b).stack = s.stack := rfl
@[simp] theorem State.setDT_sp (b : Byte) : (s.setDT b).sp = s.sp := rfl
@[simp] theorem State.setDT_dt (b : Byte) : (s.setDT b).dt = b := rfl
@[simp] theorem State.setDT_st (b : Byte) : (s.setDT b).st = s.st := rfl
@[simp] theorem State.setDT_fb (b : Byte) : (s.setDT b).fb = s.fb := rfl
@[simp] theorem State.setDT_keys (b : Byte) : (s.setDT b).keys = s.keys := rfl
@[simp] theorem State.setDT_kw (b : Byte) : (s.setDT b).kw = s.kw := rfl
@[simp] theorem State.setDT_fault (b : Byte) : (s.setDT b).fault = s.fault := rfl
@[simp] theorem State.setDT_mem (b : Byte) : (s.setDT b).mem = s.mem := rfl
@[simp] theorem State.setDT_rnd (b : Byte) : (s.setDT b).rnd = s.rnd := rfl
@[simp] theorem State.setDT_draws (b : Byte) : (s.setDT b).draws = s.draws := rfl
@[simp] theorem State.setDT_getV (b : Byte) (r : Nibble) : (s.setDT b).getV r = s.getV r := rfl
@[simp] theorem State.setDT_pixel (b : Byte) (p : Fin 64) (q : Fin 32) : pixel (s.setDT b) p q = pixel s p q := rfl

/-! `setST` -/

@[simp] theorem State.setST_v (b : Byte) : (s.setST b).v = s.v := rfl
@[simp] theorem State.setST_i (b : Byte) : (s.setST b).i = s.i := rfl
@[simp] theorem State.setST_pc (b : Byte) : (s.setST b).pc = s.pc := rfl
@[simp] theorem State.setST_stack (b : Byte) : (s.setST b).stack = s.stack := rfl
@[simp] theorem State.setST_sp (b : Byte) : (s.setST b).sp = s.sp := rfl
@[simp] theorem State.setST_dt (b : Byte) : (s.setST b).dt = s.dt := rfl
@[simp] theorem State.setST_st (b : Byte) : (s.setST b).st = b := rfl
@[simp] theorem State.setST_fb (b : Byte) : (s.setST b).fb = s.fb := rfl
@[simp] theorem State.setST_keys (b : Byte) : (s.setST b).keys = s.keys := rfl
@[simp] theorem State.setST_kw (b : Byte) : (s.setST b).kw = s.kw := rfl
@[simp] theorem State.setST_fault (b : Byte) : (s.setST b).fault = s.fault := rfl
@[simp] theorem State.setST_mem (b : Byte) : (s.setST b).mem = s.mem := rfl
@[simp] theorem State.setST_rnd (b : Byte) : (s.setST b).rnd = s.rnd := rfl
@[simp] theorem State.setST_draws (b : Byte) : (s.setST b).draws = s.draws := rfl
@[simp] theorem State.setST_getV (b : Byte) (r : Nibble) : (s.setST b).getV r = s.getV r := rfl
@[simp] theorem State.setST_pixel (b : Byte) (p : Fin 64) (q : Fin 32) : pixel (s.setST b) p q = pixel s p q := rfl

/-! `setFB` -/

@[simp] theorem State.setFB_v (f : Vector (BitVec 64) 32) : (s.setFB f).v = s.v := rfl
@[simp] theorem State.setFB_i (f : Vector (BitVec 64) 32) : (s.setFB f).i = s.i := rfl
@[simp] theorem State.setFB_pc (f : Vector (BitVec 64) 32) : (s.setFB f).pc = s.pc := rfl
@[simp] theorem State.setFB_stack (f : Vector (BitVec 64) 32) : (s.setFB f).stack = s.stack := rfl
@[simp] theorem State.setFB_sp (f : Vector (BitVec 64) 32) : (s.setFB f).sp = s.sp := rfl
@[simp] theorem State.setFB_dt (f : Vector (BitVec 64) 32) : (s.setFB f).dt = s.dt := rfl
@[simp] theorem State.setFB_st (f : Vector (BitVec 64) 32) : (s.setFB f).st = s.st := rfl
@[simp] theorem State.setFB_fb (f : Vector (BitVec 64) 32) : (s.setFB f).fb = f := rfl
@[simp] theorem State.setFB_keys (f : Vector (BitVec 64) 32) : (s.setFB f).keys = s.keys := rfl
@[simp] theorem State.setFB_kw (f : Vector (BitVec 64) 32) : (s.setFB f).kw = s.kw := rfl
@[simp] theorem State.setFB_fault (f : Vector (BitVec 64) 32) : (s.setFB f).fault = s.fault := rfl
@[simp] theorem State.setFB_mem (f : Vector (BitVec 64) 32) : (s.setFB f).mem = s.mem := rfl
@[simp] theorem State.setFB_rnd (f : Vector (BitVec 64) 32) : (s.setFB f).rnd = s.rnd := rfl
@[simp] theorem State.setFB_draws (f : Vector (BitVec 64) 32) : (s.setFB f).draws = s.draws := rfl
@[simp] theorem State.setFB_getV (f : Vector (BitVec 64) 32) (r : Nibble) : (s.setFB f).getV r = s.getV r := rfl

/-! `setKeys` -/

@[simp] theorem State.setKeys_v (k : BitVec 16) : (s.setKeys k).v = s.v := rfl
@[simp] theorem State.setKeys_i (k : BitVec 16) : (s.setKeys k).i = s.i := rfl
@[simp] theorem State.setKeys_pc (k : BitVec 16) : (s.setKeys k).pc = s.pc := rfl
@[simp] theorem State.setKeys_stack (k : BitVec 16) : (s.setKeys k).stack = s.stack := rfl
@[simp] theorem State.setKeys_sp (k : BitVec 16) : (s.setKeys k).sp = s.sp := rfl
@[simp] theorem State.setKeys_dt (k : BitVec 16) : (s.setKeys k).dt = s.dt := rfl
@[simp] theorem State.setKeys_st (k : BitVec 16) : (s.setKeys k).st = s.st := rfl
@[simp] theorem State.setKeys_fb (k : BitVec 16) : (s.setKeys k).fb = s.fb := rfl
@[simp] theorem State.setKeys_keys (k : BitVec 16) : (s.setKeys k).keys = k := rfl
@[simp] theorem State.setKeys_kw (k : BitVec 16) : (s.setKeys k).kw = s.kw := rfl
@[simp] theorem State.setKeys_fault (k : BitVec 16) : (s.setKeys k).fault = s.fault := rfl
@[simp] theorem State.setKeys_mem (k : BitVec 16) : (s.setKeys k).mem = s.mem := rfl
@[simp] theorem State.setKeys_rnd (k : BitVec 16) : (s.setKeys k).rnd = s.rnd := rfl
@[simp] theorem State.setKeys_draws (k : BitVec 16) : (s.setKeys k).draws = s.draws := rfl
@[simp] theorem State.setKeys_getV (k : BitVec 16) (r : Nibble) : (s.setKeys k).getV r = s.getV r := rfl
@[simp] theorem State.setKeys_pixel (k : BitVec 16) (p : Fin 64) (q : Fin 32) : pixel (s.setKeys k) p q = pixel s p q := rfl

/-! `setKW` -/

@[simp] theorem State.setKW_v (k : KeyWait) : (s.setKW k).v = s.v := rfl
@[simp] theorem State.setKW_i (k : KeyWait) : (s.setKW k).i = s.i := rfl
@[simp] theorem State.setKW_pc (k : KeyWait) : (s.setKW k).pc = s.pc := rfl
@[simp] theorem State.setKW_stack (k : KeyWait) : (s.setKW k).stack = s.stack := rfl
@[simp] theorem State.setKW_sp (k : KeyWait) : (s.setKW k).sp = s.sp := rfl
@[simp] theorem State.setKW_dt (k : KeyWait) : (s.setKW k).dt = s.dt := rfl
@[simp] theorem State.setKW_st (k : KeyWait) : (s.setKW k).st = s.st := rfl
@[simp] theorem State.setKW_fb (k : KeyWait) : (s.setKW k).fb = s.fb := rfl
@[simp] theorem State.setKW_keys (k : KeyWait) : (s.setKW k).keys = s.keys := rfl
@[simp] theorem State.setKW_kw (k : KeyWait) : (s.setKW k).kw = k := rfl
@[simp] theorem State.setKW_fault (k : KeyWait) : (s.setKW k).fault = s.fault := rfl
@[simp] theorem State.setKW_mem (k : KeyWait) : (s.setKW k).mem = s.mem := rfl
@[simp] theorem State.setKW_rnd (k : KeyWait) : (s.setKW k).rnd = s.rnd := rfl
@[simp] theorem State.setKW_draws (k : KeyWait) : (s.setKW k).draws = s.draws := rfl
@[simp] theorem State.setKW_getV (k : KeyWait) (r : Nibble) : (s.setKW k).getV r = s.getV r := rfl
@[simp] theorem State.setKW_pixel (k : KeyWait) (p : Fin 64) (q : Fin 32) : pixel (s.setKW k) p q = pixel s p q := rfl

/-! `setFault` -/

@[simp] theorem State.setFault_v (f : BitVec 2) : (s.setFault f).v = s.v := rfl
@[simp] theorem State.setFault_i (f : BitVec 2) : (s.setFault f).i = s.i := rfl
@[simp] theorem State.setFault_pc (f : BitVec 2) : (s.setFault f).pc = s.pc := rfl
@[simp] theorem State.setFault_stack (f : BitVec 2) : (s.setFault f).stack = s.stack := rfl
@[simp] theorem State.setFault_sp (f : BitVec 2) : (s.setFault f).sp = s.sp := rfl
@[simp] theorem State.setFault_dt (f : BitVec 2) : (s.setFault f).dt = s.dt := rfl
@[simp] theorem State.setFault_st (f : BitVec 2) : (s.setFault f).st = s.st := rfl
@[simp] theorem State.setFault_fb (f : BitVec 2) : (s.setFault f).fb = s.fb := rfl
@[simp] theorem State.setFault_keys (f : BitVec 2) : (s.setFault f).keys = s.keys := rfl
@[simp] theorem State.setFault_kw (f : BitVec 2) : (s.setFault f).kw = s.kw := rfl
@[simp] theorem State.setFault_fault (f : BitVec 2) : (s.setFault f).fault = f := rfl
@[simp] theorem State.setFault_mem (f : BitVec 2) : (s.setFault f).mem = s.mem := rfl
@[simp] theorem State.setFault_rnd (f : BitVec 2) : (s.setFault f).rnd = s.rnd := rfl
@[simp] theorem State.setFault_draws (f : BitVec 2) : (s.setFault f).draws = s.draws := rfl
@[simp] theorem State.setFault_getV (f : BitVec 2) (r : Nibble) : (s.setFault f).getV r = s.getV r := rfl
@[simp] theorem State.setFault_pixel (f : BitVec 2) (p : Fin 64) (q : Fin 32) : pixel (s.setFault f) p q = pixel s p q := rfl

/-! `setMem` -/

@[simp] theorem State.setMem_v (m : Memory) : (s.setMem m).v = s.v := rfl
@[simp] theorem State.setMem_i (m : Memory) : (s.setMem m).i = s.i := rfl
@[simp] theorem State.setMem_pc (m : Memory) : (s.setMem m).pc = s.pc := rfl
@[simp] theorem State.setMem_stack (m : Memory) : (s.setMem m).stack = s.stack := rfl
@[simp] theorem State.setMem_sp (m : Memory) : (s.setMem m).sp = s.sp := rfl
@[simp] theorem State.setMem_dt (m : Memory) : (s.setMem m).dt = s.dt := rfl
@[simp] theorem State.setMem_st (m : Memory) : (s.setMem m).st = s.st := rfl
@[simp] theorem State.setMem_fb (m : Memory) : (s.setMem m).fb = s.fb := rfl
@[simp] theorem State.setMem_keys (m : Memory) : (s.setMem m).keys = s.keys := rfl
@[simp] theorem State.setMem_kw (m : Memory) : (s.setMem m).kw = s.kw := rfl
@[simp] theorem State.setMem_fault (m : Memory) : (s.setMem m).fault = s.fault := rfl
@[simp] theorem State.setMem_mem (m : Memory) : (s.setMem m).mem = m := rfl
@[simp] theorem State.setMem_rnd (m : Memory) : (s.setMem m).rnd = s.rnd := rfl
@[simp] theorem State.setMem_draws (m : Memory) : (s.setMem m).draws = s.draws := rfl
@[simp] theorem State.setMem_getV (m : Memory) (r : Nibble) : (s.setMem m).getV r = s.getV r := rfl
@[simp] theorem State.setMem_pixel (m : Memory) (p : Fin 64) (q : Fin 32) : pixel (s.setMem m) p q = pixel s p q := rfl

/-! `setRandom` -/

@[simp] theorem State.setRandom_v (o : Option Byte) (n : Nat) : (s.setRandom o n).v = s.v := rfl
@[simp] theorem State.setRandom_i (o : Option Byte) (n : Nat) : (s.setRandom o n).i = s.i := rfl
@[simp] theorem State.setRandom_pc (o : Option Byte) (n : Nat) : (s.setRandom o n).pc = s.pc := rfl
@[simp] theorem State.setRandom_stack (o : Option Byte) (n : Nat) : (s.setRandom o n).stack = s.stack := rfl
@[simp] theorem State.setRandom_sp (o : Option Byte) (n : Nat) : (s.setRandom o n).sp = s.sp := rfl
@[simp] theorem State.setRandom_dt (o : Option Byte) (n : Nat) : (s.setRandom o n).dt = s.dt := rfl
@[simp] theorem State.setRandom_st (o : Option Byte) (n : Nat) : (s.setRandom o n).st = s.st := rfl
@[simp] theorem State.setRandom_fb (o : Option Byte) (n : Nat) : (s.setRandom o n).fb = s.fb := rfl
@[simp] theorem State.setRandom_keys (o : Option Byte) (n : Nat) : (s.setRandom o n).keys = s.keys := rfl
@[simp] theorem State.setRandom_kw (o : Option Byte) (n : Nat) : (s.setRandom o n).kw = s.kw := rfl
@[simp] theorem State.setRandom_fault (o : Option Byte) (n : Nat) : (s.setRandom o n).fault = s.fault := rfl
@[simp] theorem State.setRandom_mem (o : Option Byte) (n : Nat) : (s.setRandom o n).mem = s.mem := rfl
@[simp] theorem State.setRandom_rnd (o : Option Byte) (n : Nat) : (s.setRandom o n).rnd = o := rfl
@[simp] theorem State.setRandom_draws (o : Option Byte) (n : Nat) : (s.setRandom o n).draws = n := rfl
@[simp] theorem State.setRandom_getV (o : Option Byte) (n : Nat) (r : Nibble) : (s.setRandom o n).getV r = s.getV r := rfl
@[simp] theorem State.setRandom_pixel (o : Option Byte) (n : Nat) (p : Fin 64) (q : Fin 32) : pixel (s.setRandom o n) p q = pixel s p q := rfl

/-- A register read after a register write. -/
@[simp] theorem State.setV_getV (x : Nibble) (b : Byte) (r : Nibble) :
    (s.setV x b).getV r = if r = x then b else s.getV r := by
  unfold State.getV State.setV
  rw [Vector.getElem_set]
  simp only [BitVec.toNat_inj, eq_comm]

/-- A memory read depends on the memory alone. -/
theorem memRead_congr {s t : State} (h : t.mem = s.mem) (a : Nat) : memRead t a = memRead s a := by
  simp only [memRead, h]

end Sys2Proof.Machine
end

