-- ==== Sys2Proof/Laws/Memory.lean ====
section
/-! SUPPORT. The laws of the memory: the canonical form is kept by every operation, and a read after a write. -/

namespace Sys2Proof.Machine

/-- What `Memory.wfFrom` says of a nonempty memory. -/
theorem Memory.wfFrom_cons {lo a : Nat} {b : Byte} {m : Memory} :
    Memory.wfFrom lo ((a, b) :: m) = true ↔
      lo ≤ a ∧ a < Config.memSize ∧ b ≠ Memory.unlisted a ∧ Memory.wfFrom (a + 1) m = true := by
  simp [Memory.wfFrom, and_assoc]

/-- A lower bound may be lowered. -/
theorem Memory.wfFrom_mono {lo lo' : Nat} (h : lo' ≤ lo) {m : Memory} (hm : Memory.wfFrom lo m = true) :
    Memory.wfFrom lo' m = true := by
  cases m with
  | nil => rfl
  | cons c m =>
    obtain ⟨h1, h2⟩ := Memory.wfFrom_cons.mp hm
    exact Memory.wfFrom_cons.mpr ⟨by omega, h2⟩

/-- A pair put in front keeps the form. -/
theorem Memory.wfFrom_consCell {lo a : Nat} {b : Byte} {m : Memory} (hl : lo ≤ a) (ha : a < Config.memSize)
    (hm : Memory.wfFrom (a + 1) m = true) : Memory.wfFrom lo (Memory.consCell a b m) = true := by
  unfold Memory.consCell
  split
  · exact Memory.wfFrom_mono (by omega) hm
  · exact Memory.wfFrom_cons.mpr ⟨hl, ha, ‹_›, hm⟩

/-- A write keeps the form, above any lower bound of the memory and of the address. -/
theorem Memory.wfFrom_set {lo a : Nat} {b : Byte} {m : Memory} (hl : lo ≤ a) (ha : a < Config.memSize)
    (hm : Memory.wfFrom lo m = true) : Memory.wfFrom lo (Memory.set m a b) = true := by
  induction m generalizing lo with
  | nil => exact Memory.wfFrom_consCell hl ha rfl
  | cons c m ih =>
    obtain ⟨d, w⟩ := c
    obtain ⟨h1, h2, h3, h4⟩ := Memory.wfFrom_cons.mp hm
    unfold Memory.set
    split
    · exact Memory.wfFrom_consCell hl ha (Memory.wfFrom_cons.mpr ⟨by omega, h2, h3, h4⟩)
    · split
      · subst a; exact Memory.wfFrom_consCell hl ha h4
      · exact Memory.wfFrom_cons.mpr ⟨h1, h2, h3, ih (by omega) h4⟩

/-- Nothing listed at or below an address below the lower bound: it reads as unlisted. -/
theorem Memory.get_of_lt {lo a : Nat} {m : Memory} (hm : Memory.wfFrom lo m = true) (ha : a < lo) :
    Memory.get m a = Memory.unlisted a := by
  induction m generalizing lo with
  | nil => rfl
  | cons c m ih =>
    obtain ⟨d, w⟩ := c
    obtain ⟨h1, -, -, h4⟩ := Memory.wfFrom_cons.mp hm
    simp only [Memory.get, show a ≠ d by omega, if_false]
    exact ih h4 (by omega)

/-- A read of the address of a pair put in front. -/
theorem Memory.get_consCell_same {a : Nat} {b : Byte} {m : Memory} (hm : Memory.get m a = Memory.unlisted a) :
    Memory.get (Memory.consCell a b m) a = b := by
  unfold Memory.consCell
  split
  · exact hm.trans (Eq.symm ‹_›)
  · simp [Memory.get]

/-- A read of another address. -/
theorem Memory.get_consCell_other {a a' : Nat} {b : Byte} {m : Memory} (h : a' ≠ a) :
    Memory.get (Memory.consCell a b m) a' = Memory.get m a' := by
  unfold Memory.consCell
  split
  · rfl
  · simp [Memory.get, h]

/-- In a canonical memory a read after a write to the same address gives the byte written. -/
theorem Memory.get_set_same {lo a : Nat} {b : Byte} {m : Memory} (hm : Memory.wfFrom lo m = true) :
    Memory.get (Memory.set m a b) a = b := by
  induction m generalizing lo with
  | nil => exact Memory.get_consCell_same rfl
  | cons c m ih =>
    obtain ⟨d, w⟩ := c
    obtain ⟨h1, h2, h3, h4⟩ := Memory.wfFrom_cons.mp hm
    unfold Memory.set
    split
    · exact Memory.get_consCell_same
        (Memory.get_of_lt (Memory.wfFrom_cons.mpr ⟨Nat.succ_le_of_lt ‹a < d›, h2, h3, h4⟩) (Nat.lt_succ_self a))
    · split
      · subst a; exact Memory.get_consCell_same (Memory.get_of_lt h4 (by omega))
      · simpa only [Memory.get, ‹¬ a = d›, if_false] using ih h4

/-- A write leaves every other address alone, in any memory. -/
theorem Memory.get_set_other {a a' : Nat} {b : Byte} {m : Memory} (h : a' ≠ a) :
    Memory.get (Memory.set m a b) a' = Memory.get m a' := by
  induction m with
  | nil => exact Memory.get_consCell_other h
  | cons c m ih =>
    obtain ⟨d, w⟩ := c
    unfold Memory.set
    split
    · exact Memory.get_consCell_other h
    · split
      · subst a; simp only [Memory.get_consCell_other h, Memory.get, if_neg h]
      · simp only [Memory.get, ih]

/-- A masked address is below 4096 (20_memory.md R31). -/
theorem mask12_lt (a : Nat) : mask12 a < Config.memSize := Nat.mod_lt _ (by decide)

/-- Masking once is enough. -/
@[simp] theorem mask12_mask12 (a : Nat) : mask12 (mask12 a) = mask12 a := Nat.mod_mod _ _

/-- Every write of the machine keeps the canonical form. -/
theorem memWrite_wf {s : State} {a : Nat} {b : Byte} (h : Memory.wf s.mem = true) :
    Memory.wf (memWrite s a b).mem = true :=
  Memory.wfFrom_set (Nat.zero_le _) (mask12_lt a) h

/-- What a byte reads as after a write elsewhere, in any memory. -/
theorem memRead_memWrite_other {s : State} {a a' : Nat} {b : Byte} (h : mask12 a' ≠ mask12 a) :
    memRead (memWrite s a b) a' = memRead s a' :=
  Memory.get_set_other h

/-- The reset memory has the canonical form. -/
theorem reset_mem_wf : Memory.wf State.reset.mem = true := rfl

end Sys2Proof.Machine
end

