-- ==== Sys2Proof/Laws/Ops.lean ====
section
/-! SUPPORT. For each shared operation one lemma that says everything it can do; later proofs cite it and never unfold the
operation. -/

namespace Sys2Proof.Machine

/-! The program counter, faults, the stack -/

/-- A skip moves `pc` and nothing else (40_control_flow.md R75). -/
theorem skipIf_eq (c : Bool) (s : State) : skipIf c s = s.setPc (if c then s.pc + 2 else s.pc) := by
  cases c <;> rfl

/-- An operation that may raise answers its result or the fault taken on the state before it (60_exceptions.md R133). -/
theorem orRaise_cases {s t : State} {r : Except StackFault State} :
    orRaise s r = .next t ↔ r = .ok t ∨ ∃ f, r = .error f ∧ t = raiseFault f s := by
  cases r <;> simp [orRaise, eq_comm]

/-- Every outcome of an operation that may raise is a next state. -/
theorem orRaise_next (s : State) (r : Except StackFault State) : ∃ t, orRaise s r = .next t := by
  cases r <;> exact ⟨_, rfl⟩

/-- A push below the limit (40_control_flow.md R76). -/
theorem push_ok {a : Word} {s : State} (h : s.sp.val < 16) :
    push a s = .ok (s.setStack (s.stack.set s.sp.val a h) ⟨s.sp.val + 1, by omega⟩) := by
  simp [push, h]

/-- A push on a full stack. -/
theorem push_full {a : Word} {s : State} (h : s.sp = 16) : push a s = .error .overflow := by
  simp [push, h]

/-- A pop from a nonempty stack. -/
theorem pop_ok {s : State} (h : s.sp.val ≠ 0) :
    pop s = .ok (s.stack[s.sp.val - 1]'(by omega), s.setStack s.stack ⟨s.sp.val - 1, by omega⟩) := by
  simp [pop, h]

/-- A pop from an empty stack. -/
theorem pop_empty {s : State} (h : s.sp = 0) : pop s = .error .underflow := by
  simp [pop, h]

/-- Below the limit or full. -/
theorem sp_cases (s : State) : s.sp.val < 16 ∨ s.sp = 16 := by
  rcases Nat.lt_or_ge s.sp.val 16 with h | h
  · exact .inl h
  · exact .inr (Fin.ext (by have := s.sp.isLt; omega))

/-- The wait check: nothing while idle; else the state, idle again if the key is up (44_keypad_timers.md R127). -/
theorem waitCheck_cases {s t : State} :
    waitCheck s = some t ↔ ∃ k d, s.kw = .waitingForRelease k d ∧
      t = if keyDown s k then s else s.setKW .idle := by
  unfold waitCheck
  cases hk : s.kw with
  | idle => simp
  | waitingForRelease k d =>
    simp only [Option.some.injEq, KeyWait.waitingForRelease.injEq]
    exact ⟨fun h => ⟨k, d, ⟨rfl, rfl⟩, h.symm⟩, fun ⟨_, _, ⟨hk, _⟩, ht⟩ => by rw [ht, hk]⟩

/-- Idle and no wait check are the same. -/
theorem waitCheck_none {s : State} : waitCheck s = none ↔ s.kw = .idle := by
  unfold waitCheck
  cases hk : s.kw <;> simp

/-- Everything a Step can do (30_encoding.md R45). -/
theorem step_cases {s : State} {o : Host.Outcome State Fault Refusal} (h : step s = o) :
    (s.fault ≠ 0 ∧ o = .next s) ∨
    (s.fault = 0 ∧ (∃ k d, s.kw = .waitingForRelease k d ∧ o = .next (if keyDown s k then s else s.setKW .idle))) ∨
    (s.fault = 0 ∧ s.kw = .idle ∧ o = exec (decodeWord (fetchWord s)) (advancePc s)) := by
  subst o
  unfold step
  by_cases hf : s.fault = 0
  · rw [if_neg (by simp [halted, hf])]
    cases hw : waitCheck s with
    | none => exact .inr (.inr ⟨hf, waitCheck_none.mp hw, rfl⟩)
    | some t =>
      obtain ⟨k, d, hk, ht⟩ := waitCheck_cases.mp hw
      exact .inr (.inl ⟨hf, k, d, hk, congrArg _ ht⟩)
  · exact .inl ⟨hf, if_pos (bne_iff_ne.mpr hf)⟩

/-! Registers with a flag -/

/-- The flag wins in `VF`, then the result in `V[x]` (41_alu.md R80). -/
@[simp] theorem writeWithFlag_getV (s : State) (x : Nibble) (a f : Byte) (r : Nibble) :
    (writeWithFlag s x a f).getV r = if r = vf then f else if r = x then a else s.getV r := by
  simp [writeWithFlag]

/-- A result and a flag are written to the register file alone. -/
theorem writeWithFlag_frame (s : State) (x : Nibble) (a f : Byte) :
    writeWithFlag s x a f = { s with v := (writeWithFlag s x a f).v } := rfl

/-! The framebuffer -/

/-- One pixel toggles (43_display.md R111). -/
theorem flipPixel_pixel (s : State) (x p : Fin 64) (y q : Fin 32) :
    pixel (flipPixel s x y) p q = (pixel s p q ^^ decide (p = x ∧ q = y)) := by
  unfold pixel flipPixel
  simp only [State.setFB_fb, Vector.getElem_set]
  by_cases h : y.val = q.val
  · simp [h, Fin.ext_iff]
  · have h' : ¬ q.val = y.val := fun e => h e.symm
    simp [h, h', Fin.ext_iff]

/-- A clear framebuffer (43_display.md R110). -/
theorem clearFB_pixel (s : State) (p : Fin 64) (q : Fin 32) : pixel (clearFB s) p q = false := by
  simp [pixel, clearFB]

/-- The state differs at most in the framebuffer and in `VF`. -/
def OnlyDraws (s t : State) : Prop :=
  t = { s with v := t.v, fb := t.fb } ∧ ∀ r, r ≠ vf → t.getV r = s.getV r

theorem OnlyDraws.refl (s : State) : OnlyDraws s s := ⟨rfl, fun _ _ => rfl⟩

theorem OnlyDraws.trans {s t u : State} (h : OnlyDraws s t) (h' : OnlyDraws t u) : OnlyDraws s u := by
  refine ⟨?_, fun r hr => (h'.2 r hr).trans (h.2 r hr)⟩
  rw [h'.1, h.1]

theorem OnlyDraws.clear (s : State) : OnlyDraws s (s.setV vf 0) :=
  ⟨rfl, fun r hr => by simp [hr]⟩

theorem drawPixel_frame (s : State) (x : Fin 64) (y : Fin 32) : OnlyDraws s (drawPixel s x y) := by
  unfold drawPixel
  split
  · exact ⟨rfl, fun r hr => by
      show (s.setV vf 1).getV r = _
      simp [hr]⟩
  · exact ⟨rfl, fun _ _ => rfl⟩

theorem drawCols_frame (b : Byte) (x0 : Nat) (y : Fin 32) (k c : Nat) (s : State) :
    OnlyDraws s (drawCols b x0 y k c s) := by
  induction k generalizing c s with
  | zero => exact .refl s
  | succ k ih =>
    unfold drawCols
    split
    · refine OnlyDraws.trans ?_ (ih _ _)
      split
      · exact drawPixel_frame ..
      · exact .refl s
    · exact .refl s

/-- Drawing changes the framebuffer and `VF`, nothing else (43_display.md R111). -/
theorem drawRows_frame (x0 y0 k r : Nat) (s : State) : OnlyDraws s (drawRows x0 y0 k r s) := by
  induction k generalizing r s with
  | zero => exact .refl s
  | succ k ih =>
    unfold drawRows
    split
    · exact (drawCols_frame ..).trans (ih _ _)
    · exact .refl s

/-! Register dump and load -/

/-- Dumping registers writes memory alone (42_index_memory.md R104). -/
theorem dumpRegs_frame (k : Nat) (s : State) : dumpRegs k s = s.setMem (dumpRegs k s).mem := by
  induction k with
  | zero => rfl
  | succ k ih => simp only [dumpRegs, memWrite]; rw [ih]; rfl

/-- Dumping registers keeps the canonical form. -/
theorem dumpRegs_wf {k : Nat} {s : State} (h : Memory.wf s.mem = true) : Memory.wf (dumpRegs k s).mem = true := by
  induction k with
  | zero => exact h
  | succ k ih => exact memWrite_wf ih

/-- A byte outside the dumped range reads as before, in any memory. -/
theorem dumpRegs_other {k a : Nat} {s : State} (h : ∀ j < k, mask12 a ≠ effAddr s j) :
    memRead (dumpRegs k s) a = memRead s a := by
  induction k with
  | zero => rfl
  | succ k ih =>
    rw [dumpRegs, memRead_memWrite_other (h k (Nat.lt_succ_self k)), ih fun j hj => h j (by omega)]

/-- Loading registers writes the register file alone (42_index_memory.md R105). -/
theorem loadRegs_frame (k : Nat) (s : State) : loadRegs k s = { s with v := (loadRegs k s).v } := by
  induction k with
  | zero => rfl
  | succ k ih => simp only [loadRegs, State.setV]; rw [ih]

/-- Register `r` after loading the first `k <= 16` registers. -/
theorem loadRegs_getV {k : Nat} (hk : k ≤ 16) (s : State) (r : Nibble) :
    (loadRegs k s).getV r = if r.toNat < k then memRead s (indexAddr s r.toNat) else s.getV r := by
  induction k with
  | zero => rfl
  | succ k ih =>
    have hmod : k % 2 ^ 4 = k := Nat.mod_eq_of_lt (by omega)
    rw [loadRegs, State.setV_getV, ih (by omega)]
    by_cases h : r = BitVec.ofNat 4 k
    · have hr : r.toNat = k := by rw [h, BitVec.toNat_ofNat, hmod]
      simp [← hr]
    · have hr : r.toNat ≠ k := fun e => h (BitVec.eq_of_toNat_eq (by rw [e, BitVec.toNat_ofNat, hmod]))
      simp [h, show r.toNat < k + 1 ↔ r.toNat < k by omega]

/-! The keypad and the driver -/

/-- The lowest pressed key, if any (44_keypad_timers.md R123). -/
theorem firstKey_some {s : State} {k : Nibble} (h : firstKey s = some k) :
    keyDown s k = true ∧ ∀ j : Nibble, j.toNat < k.toNat → keyDown s j = false := by
  unfold firstKey at h
  obtain ⟨n, hn, rfl⟩ := Option.map_eq_some_iff.mp h
  obtain ⟨hp, hlt, hmin⟩ := List.find?_range_eq_some.mp hn
  have hm : (BitVec.ofNat 4 n).toNat = n := by
    rw [BitVec.toNat_ofNat]; exact Nat.mod_eq_of_lt (List.mem_range.mp hlt)
  refine ⟨by simpa only [keyDown, hm] using hp, fun j hj => ?_⟩
  rw [hm] at hj
  simpa [keyDown] using hmin j.toNat hj

/-- No key is pressed. -/
theorem firstKey_none {s : State} (h : firstKey s = none) (k : Nibble) : keyDown s k = false := by
  unfold firstKey at h
  simpa [keyDown] using List.find?_range_eq_none.mp (Option.map_eq_none_iff.mp h) k.toNat k.isLt

/-- A load writes memory alone (70_reset_and_hazards.md R152). -/
theorem storeBytes_frame (bs : List Byte) (a : Nat) (s : State) :
    storeBytes bs a s = s.setMem (storeBytes bs a s).mem := by
  induction bs generalizing a s with
  | nil => rfl
  | cons b bs ih => rw [storeBytes, ih]; rfl

/-- A load keeps the canonical form. -/
theorem storeBytes_wf {bs : List Byte} {a : Nat} {s : State} (h : Memory.wf s.mem = true) :
    Memory.wf (storeBytes bs a s).mem = true := by
  induction bs generalizing a s with
  | nil => exact h
  | cons b bs ih => exact ih (memWrite_wf h)

end Sys2Proof.Machine
end

