-- ==== Sys2Proof/Laws/PerInstr.lean ====
section
/-! SUPPORT. A family of statements made for each instruction: its word stands in the row of spec/opcode_table.json that
LAWS.json names for its constructor. -/

namespace Sys2Proof.Laws.TableRow

/-- The opcode table has a row of the instruction's mnemonic, and the instruction's word matches the row's mask and bits. -/
def Statement (i : Instr) : Prop :=
  ∃ r ∈ opcodeTable, r.name = i.mnemonic ∧ encode i &&& r.mask = r.pat

theorem cls : Statement .cls :=
  ⟨⟨"CLS", 0xFFFF, 0x00E0⟩, by decide, rfl, by decide⟩

theorem ret : Statement .ret :=
  ⟨⟨"RET", 0xFFFF, 0x00EE⟩, by decide, rfl, by decide⟩

theorem sys (nnn : Addr) : Statement (.sys nnn) :=
  ⟨⟨"SYS_NNN", 0xF000, 0x0000⟩, by decide, rfl, nibbleAddr_mask_F000 0x0#4 nnn⟩

theorem jp (nnn : Addr) : Statement (.jp nnn) :=
  ⟨⟨"JP_NNN", 0xF000, 0x1000⟩, by decide, rfl, nibbleAddr_mask_F000 0x1#4 nnn⟩

theorem call (nnn : Addr) : Statement (.call nnn) :=
  ⟨⟨"CALL_NNN", 0xF000, 0x2000⟩, by decide, rfl, nibbleAddr_mask_F000 0x2#4 nnn⟩

theorem seImm (x : Nibble) (nn : Byte) : Statement (.seImm x nn) :=
  ⟨⟨"SE_Vx_NN", 0xF000, 0x3000⟩, by decide, rfl, nibblesByte_mask_F000 0x3#4 x nn⟩

theorem sneImm (x : Nibble) (nn : Byte) : Statement (.sneImm x nn) :=
  ⟨⟨"SNE_Vx_NN", 0xF000, 0x4000⟩, by decide, rfl, nibblesByte_mask_F000 0x4#4 x nn⟩

theorem seReg (x : Nibble) (y : Nibble) (n : Nibble) : Statement (.seReg x y n) :=
  ⟨⟨"SE_Vx_Vy", 0xF000, 0x5000⟩, by decide, rfl, nibbles_mask_F000 0x5#4 x y n⟩

theorem ldImm (x : Nibble) (nn : Byte) : Statement (.ldImm x nn) :=
  ⟨⟨"LD_Vx_NN", 0xF000, 0x6000⟩, by decide, rfl, nibblesByte_mask_F000 0x6#4 x nn⟩

theorem addImm (x : Nibble) (nn : Byte) : Statement (.addImm x nn) :=
  ⟨⟨"ADD_Vx_NN", 0xF000, 0x7000⟩, by decide, rfl, nibblesByte_mask_F000 0x7#4 x nn⟩

theorem ldReg (x : Nibble) (y : Nibble) : Statement (.ldReg x y) :=
  ⟨⟨"LD_Vx_Vy", 0xF00F, 0x8000⟩, by decide, rfl, nibbles_mask_F00F 0x8#4 x y 0x0#4⟩

theorem orReg (x : Nibble) (y : Nibble) : Statement (.orReg x y) :=
  ⟨⟨"OR_Vx_Vy", 0xF00F, 0x8001⟩, by decide, rfl, nibbles_mask_F00F 0x8#4 x y 0x1#4⟩

theorem andReg (x : Nibble) (y : Nibble) : Statement (.andReg x y) :=
  ⟨⟨"AND_Vx_Vy", 0xF00F, 0x8002⟩, by decide, rfl, nibbles_mask_F00F 0x8#4 x y 0x2#4⟩

theorem xorReg (x : Nibble) (y : Nibble) : Statement (.xorReg x y) :=
  ⟨⟨"XOR_Vx_Vy", 0xF00F, 0x8003⟩, by decide, rfl, nibbles_mask_F00F 0x8#4 x y 0x3#4⟩

theorem addReg (x : Nibble) (y : Nibble) : Statement (.addReg x y) :=
  ⟨⟨"ADD_Vx_Vy", 0xF00F, 0x8004⟩, by decide, rfl, nibbles_mask_F00F 0x8#4 x y 0x4#4⟩

theorem subReg (x : Nibble) (y : Nibble) : Statement (.subReg x y) :=
  ⟨⟨"SUB_Vx_Vy", 0xF00F, 0x8005⟩, by decide, rfl, nibbles_mask_F00F 0x8#4 x y 0x5#4⟩

theorem shrReg (x : Nibble) (y : Nibble) : Statement (.shrReg x y) :=
  ⟨⟨"SHR_Vx_Vy", 0xF00F, 0x8006⟩, by decide, rfl, nibbles_mask_F00F 0x8#4 x y 0x6#4⟩

theorem subnReg (x : Nibble) (y : Nibble) : Statement (.subnReg x y) :=
  ⟨⟨"SUBN_Vx_Vy", 0xF00F, 0x8007⟩, by decide, rfl, nibbles_mask_F00F 0x8#4 x y 0x7#4⟩

theorem shlReg (x : Nibble) (y : Nibble) : Statement (.shlReg x y) :=
  ⟨⟨"SHL_Vx_Vy", 0xF00F, 0x800E⟩, by decide, rfl, nibbles_mask_F00F 0x8#4 x y 0xE#4⟩

theorem sneReg (x : Nibble) (y : Nibble) (n : Nibble) : Statement (.sneReg x y n) :=
  ⟨⟨"SNE_Vx_Vy", 0xF000, 0x9000⟩, by decide, rfl, nibbles_mask_F000 0x9#4 x y n⟩

theorem ldI (nnn : Addr) : Statement (.ldI nnn) :=
  ⟨⟨"LD_I_NNN", 0xF000, 0xA000⟩, by decide, rfl, nibbleAddr_mask_F000 0xA#4 nnn⟩

theorem jpV0 (nnn : Addr) : Statement (.jpV0 nnn) :=
  ⟨⟨"JP_V0_NNN", 0xF000, 0xB000⟩, by decide, rfl, nibbleAddr_mask_F000 0xB#4 nnn⟩

theorem rnd (x : Nibble) (nn : Byte) : Statement (.rnd x nn) :=
  ⟨⟨"RND_Vx_NN", 0xF000, 0xC000⟩, by decide, rfl, nibblesByte_mask_F000 0xC#4 x nn⟩

theorem drw (x : Nibble) (y : Nibble) (n : Nibble) : Statement (.drw x y n) :=
  ⟨⟨"DRW_Vx_Vy_N", 0xF000, 0xD000⟩, by decide, rfl, nibbles_mask_F000 0xD#4 x y n⟩

theorem skp (x : Nibble) : Statement (.skp x) :=
  ⟨⟨"SKP_Vx", 0xF0FF, 0xE09E⟩, by decide, rfl, nibblesByte_mask_F0FF 0xE#4 x 0x9E#8⟩

theorem sknp (x : Nibble) : Statement (.sknp x) :=
  ⟨⟨"SKNP_Vx", 0xF0FF, 0xE0A1⟩, by decide, rfl, nibblesByte_mask_F0FF 0xE#4 x 0xA1#8⟩

theorem ldVxDT (x : Nibble) : Statement (.ldVxDT x) :=
  ⟨⟨"LD_Vx_DT", 0xF0FF, 0xF007⟩, by decide, rfl, nibblesByte_mask_F0FF 0xF#4 x 0x07#8⟩

theorem ldVxK (x : Nibble) : Statement (.ldVxK x) :=
  ⟨⟨"LD_Vx_K", 0xF0FF, 0xF00A⟩, by decide, rfl, nibblesByte_mask_F0FF 0xF#4 x 0x0A#8⟩

theorem ldDTVx (x : Nibble) : Statement (.ldDTVx x) :=
  ⟨⟨"LD_DT_Vx", 0xF0FF, 0xF015⟩, by decide, rfl, nibblesByte_mask_F0FF 0xF#4 x 0x15#8⟩

theorem ldSTVx (x : Nibble) : Statement (.ldSTVx x) :=
  ⟨⟨"LD_ST_Vx", 0xF0FF, 0xF018⟩, by decide, rfl, nibblesByte_mask_F0FF 0xF#4 x 0x18#8⟩

theorem addI (x : Nibble) : Statement (.addI x) :=
  ⟨⟨"ADD_I_Vx", 0xF0FF, 0xF01E⟩, by decide, rfl, nibblesByte_mask_F0FF 0xF#4 x 0x1E#8⟩

theorem ldF (x : Nibble) : Statement (.ldF x) :=
  ⟨⟨"LD_F_Vx", 0xF0FF, 0xF029⟩, by decide, rfl, nibblesByte_mask_F0FF 0xF#4 x 0x29#8⟩

theorem ldB (x : Nibble) : Statement (.ldB x) :=
  ⟨⟨"LD_B_Vx", 0xF0FF, 0xF033⟩, by decide, rfl, nibblesByte_mask_F0FF 0xF#4 x 0x33#8⟩

theorem ldMemVx (x : Nibble) : Statement (.ldMemVx x) :=
  ⟨⟨"LD__I__Vx", 0xF0FF, 0xF055⟩, by decide, rfl, nibblesByte_mask_F0FF 0xF#4 x 0x55#8⟩

theorem ldVxMem (x : Nibble) : Statement (.ldVxMem x) :=
  ⟨⟨"LD_Vx__I", 0xF0FF, 0xF065⟩, by decide, rfl, nibblesByte_mask_F0FF 0xF#4 x 0x65#8⟩

theorem undef (w : Word) : Statement (.undef w) :=
  ⟨⟨"UNDEF", 0x0000, 0x0000⟩, by decide, rfl, by simp⟩

end Sys2Proof.Laws.TableRow
end

