-- ==== Sys2Proof/Tests/Slice0.lean ====
section
/-! SUPPORT. The model's own tests. Expected values are those of spec/95_test_vectors.md (the row or property is named in
each docstring) or are worked out by hand from the rule named; encodings are written out from spec/30_encoding.md R48 to R59.
The last part holds, for each statement with hypotheses, a state and operands that meet all of them. -/

namespace Sys2Proof.Tests

open Sys2Proof Sys2Proof.Machine

/-! Helpers -/

/-- The state in an outcome; every outcome here is a next state, which `isNext` says. -/
def after (o : Host.Outcome State Fault Refusal) : State :=
  match o with
  | .next t => t
  | .fault _ => State.reset
  | .refused _ => State.reset

/-- The outcome is a next state. -/
def isNext (o : Host.Outcome State Fault Refusal) : Bool :=
  match o with
  | .next _ => true
  | .fault _ => false
  | .refused _ => false

/-- One Step on word `w`, placed at `pc` (the convention of 95_test_vectors.md, Part 2). -/
def run (w : Nat) (s : State) : State := after (step (s.withFetchWord 16 w))

/-- The reset state with `V1` and `V2` set. -/
def regs12 (a b : Byte) : State := (State.reset.setV 1 a).setV 2 b

/-- The reset state with `I` set and a list of bytes at it. -/
def atI (a : Word) (bytes : List Byte) : State := storeBytes bytes a.toNat (State.reset.setI a)

/-- `V[x]`, `VF` and `pc` of a state. -/
def xfp (x : Nibble) (s : State) : Byte × Byte × Word := (s.getV x, s.getV vf, s.pc)

/-- A framebuffer row. -/
def row (s : State) (y : Fin 32) : BitVec 64 := s.fb[y.val]

/-! Ill-formed terms are refused (30_encoding.md R51, R56) -/

theorem test_wf_sys_is_not_cls : (Instr.sys 0x0E0).wf = false := by decide
theorem test_wf_sys_is_not_ret : (Instr.sys 0x0EE).wf = false := by decide
theorem test_wf_undef_not_in_another_family : (Instr.undef 0x6012).wf = false := by decide
theorem test_wf_undef_not_family0 : (Instr.undef 0x0123).wf = false := by decide
theorem test_wf_undef_not_assigned_in_8 : (Instr.undef 0x812E).wf = false := by decide
theorem test_wf_undef_not_assigned_in_E : (Instr.undef 0xE3A1).wf = false := by decide
theorem test_wf_undef_not_assigned_in_F : (Instr.undef 0xF365).wf = false := by decide
theorem test_wf_holes :
    (Instr.undef 0x8128).wf = true ∧ (Instr.undef 0xE100).wf = true ∧ (Instr.undef 0xF1FF).wf = true ∧
    (Instr.sys 0x1E0).wf = true := by decide

/-! Decoding: one word a constructor, written out nibble by nibble from 30_encoding.md R48, R50 to R55 -/

theorem test_decode_cls : decodeWord 0x00E0 = .cls := by decide
theorem test_decode_ret : decodeWord 0x00EE = .ret := by decide
theorem test_decode_sys : decodeWord 0x0234 = .sys 0x234 := by decide
theorem test_decode_jp : decodeWord 0x1234 = .jp 0x234 := by decide
theorem test_decode_call : decodeWord 0x220C = .call 0x20C := by decide
theorem test_decode_seImm : decodeWord 0x3F01 = .seImm 0xF 0x01 := by decide
theorem test_decode_sneImm : decodeWord 0x4211 = .sneImm 2 0x11 := by decide
theorem test_decode_seReg : decodeWord 0x5127 = .seReg 1 2 7 := by decide
theorem test_decode_ldImm : decodeWord 0x6A55 = .ldImm 0xA 0x55 := by decide
theorem test_decode_addImm : decodeWord 0x7120 = .addImm 1 0x20 := by decide
theorem test_decode_ldReg : decodeWord 0x8120 = .ldReg 1 2 := by decide
theorem test_decode_orReg : decodeWord 0x8121 = .orReg 1 2 := by decide
theorem test_decode_andReg : decodeWord 0x8122 = .andReg 1 2 := by decide
theorem test_decode_xorReg : decodeWord 0x8123 = .xorReg 1 2 := by decide
theorem test_decode_addReg : decodeWord 0x8124 = .addReg 1 2 := by decide
theorem test_decode_subReg : decodeWord 0x8125 = .subReg 1 2 := by decide
theorem test_decode_shrReg : decodeWord 0x8126 = .shrReg 1 2 := by decide
theorem test_decode_subnReg : decodeWord 0x8127 = .subnReg 1 2 := by decide
theorem test_decode_shlReg : decodeWord 0x812E = .shlReg 1 2 := by decide
theorem test_decode_sneReg : decodeWord 0x9120 = .sneReg 1 2 0 := by decide
theorem test_decode_ldI : decodeWord 0xA2F0 = .ldI 0x2F0 := by decide
theorem test_decode_jpV0 : decodeWord 0xB300 = .jpV0 0x300 := by decide
theorem test_decode_rnd : decodeWord 0xC30F = .rnd 3 0x0F := by decide
theorem test_decode_drw : decodeWord 0xD7A3 = .drw 7 0xA 3 := by decide
theorem test_decode_skp : decodeWord 0xE19E = .skp 1 := by decide
theorem test_decode_sknp : decodeWord 0xE1A1 = .sknp 1 := by decide
theorem test_decode_ldVxDT : decodeWord 0xF407 = .ldVxDT 4 := by decide
theorem test_decode_ldVxK : decodeWord 0xF30A = .ldVxK 3 := by decide
theorem test_decode_ldDTVx : decodeWord 0xF315 = .ldDTVx 3 := by decide
theorem test_decode_ldSTVx : decodeWord 0xF018 = .ldSTVx 0 := by decide
theorem test_decode_addI : decodeWord 0xF31E = .addI 3 := by decide
theorem test_decode_ldF : decodeWord 0xF029 = .ldF 0 := by decide
theorem test_decode_ldB : decodeWord 0xF133 = .ldB 1 := by decide
theorem test_decode_ldMemVx : decodeWord 0xF155 = .ldMemVx 1 := by decide
theorem test_decode_ldVxMem : decodeWord 0xF265 = .ldVxMem 2 := by decide
theorem test_decode_undef :
    decodeWord 0x8128 = .undef 0x8128 ∧ decodeWord 0xE100 = .undef 0xE100 ∧ decodeWord 0xF1FF = .undef 0xF1FF := by decide

/-- Where two rows of the opcode table match a word in common, the later row's mask lies within the earlier row's: the order
of R49. -/
theorem test_opcode_table_order : opcodeTable.Pairwise fun a b => b.mask &&& a.mask = b.mask ∨ a.pat &&& b.mask ≠ b.pat := by
  decide

/-- Two rows with the same mask never match the same word. -/
theorem test_opcode_table_no_overlap : opcodeTable.Pairwise fun a b => a.mask = b.mask → a.pat ≠ b.pat := by decide

/-- The host's entry reads the bits below `nbits` alone. -/
theorem test_decodeTableWord : decodeTableWord 16 0xD7A3 = some (.drw 7 0xA 3) ∧ decodeTableWord 8 0xD7E0 = some .cls := by
  decide

/-! Fetch and the program counter (95_test_vectors.md F2, F3, F4) -/

/-- F2: the low byte comes from address 0 and `pc` keeps 16 bits. -/
theorem test_fetch_wraps : xfp 0xA (run 0x6A55 (State.reset.setPc 0x0FFF)) = (0x55, 0, 0x1001) := by decide
/-- F3. -/
theorem test_pc_wraps : xfp 0xA (run 0x6A55 (State.reset.setPc 0xFFFF)) = (0x55, 0, 0x0001) := by decide
/-- F4: the word stands at `0x200`. -/
theorem test_fetch_masks : xfp 0xB (after (step ((storeBytes [0x6B, 0x07] 0x200 State.reset).setPc 0x1200))) = (0x07, 0, 0x1202) := by
  decide

/-! Control flow (CF rows) -/

/-- CF1. -/
theorem test_sys : run 0x0234 State.reset = (State.reset.withFetchWord 16 0x0234).setPc 0x202 := by decide
/-- CF3. -/
theorem test_undef : let s := (regs12 5 7).setV 15 9; run 0x8128 s = (s.withFetchWord 16 0x8128).setPc 0x202 := by decide
/-- CF7. -/
theorem test_ret : let t := run 0x00EE ((State.reset.setPc 0x20E).setStack (Vector.replicate 16 0x206) 1)
    t.pc = 0x206 ∧ t.sp = 0 ∧ t.fault = 0 := by decide
/-- CF8. -/
theorem test_ret_underflow : let t := run 0x00EE (State.reset.setPc 0x20E); t.pc = 0x210 ∧ t.sp = 0 ∧ t.fault = 2 := by decide
/-- CF9. -/
theorem test_jp : (run 0x1214 State.reset).pc = 0x214 := by decide
/-- CF12: the sixteenth entry is accepted. -/
theorem test_call_last_slot : let t := run 0x2400 ((State.reset.setPc 0x300).setStack (Vector.replicate 16 0) 15)
    t.stack[15] = 0x302 ∧ t.stack[14] = 0 ∧ t.sp = 16 ∧ t.pc = 0x400 ∧ t.fault = 0 := by decide
/-- CF13. -/
theorem test_call_overflow : let t := run 0x2400 ((State.reset.setPc 0x300).setStack (Vector.replicate 16 0) 16)
    t.stack = Vector.replicate 16 0 ∧ t.sp = 16 ∧ t.pc = 0x302 ∧ t.fault = 1 := by decide
/-- CF14. -/
theorem test_jpV0 : (run 0xB300 (State.reset.setV 0 4)).pc = 0x304 := by decide
/-- CF15. -/
theorem test_jpV0_unmasked : (run 0xBFFF (State.reset.setV 0 0xFF)).pc = 0x10FE := by decide
/-- CF16, CF17. -/
theorem test_seImm : (run 0x3F01 ((State.reset.setPc 0x206).setV 15 1)).pc = 0x20A ∧
    (run 0x3F01 (State.reset.setPc 0x206)).pc = 0x208 := by decide
/-- CF26. -/
theorem test_seImm_wraps : (run 0x3000 (State.reset.setPc 0xFFFC)).pc = 0 := by decide
/-- CF18, CF19. -/
theorem test_sneImm : let s := (State.reset.setPc 0x300).setV 2 0x10
    (run 0x4210 s).pc = 0x302 ∧ (run 0x4211 s).pc = 0x304 := by decide
/-- CF23, CF21. -/
theorem test_seReg : (run 0x5127 (regs12 7 7)).pc = 0x204 ∧ (run 0x5120 (regs12 7 8)).pc = 0x202 := by decide
/-- CF24, CF25. -/
theorem test_sneReg : (run 0x9120 (regs12 7 8)).pc = 0x204 ∧ (run 0x9120 (regs12 7 7)).pc = 0x202 := by decide

/-! Registers and ALU (A rows) -/

/-- A1. -/
theorem test_ldImm : xfp 0 (run 0x60FF State.reset) = (0xFF, 0, 0x202) := by decide
/-- A2. -/
theorem test_addImm_wraps : xfp 1 (run 0x7120 ((regs12 0xF0 0).setV 15 7)) = (0x10, 7, 0x202) := by decide
/-- A4. -/
theorem test_ldReg : xfp 1 (run 0x8120 (regs12 0 0x33)) = (0x33, 0, 0x202) := by decide
/-- A5, A9 (`X` is 15). -/
theorem test_or : xfp 1 (run 0x8121 ((regs12 1 0xFB).setV 15 1)) = (0xFB, 0, 0x202) ∧
    (run 0x8F01 ((State.reset.setV 15 0xAA).setV 0 0x55)).getV 15 = 0 := by decide
/-- A6. -/
theorem test_and : xfp 1 (run 0x8122 ((regs12 0xF0 0x3C).setV 15 1)) = (0x30, 0, 0x202) := by decide
/-- A7, A8. -/
theorem test_xor : xfp 1 (run 0x8123 ((regs12 0xFF 0x0F).setV 15 1)) = (0xF0, 0, 0x202) ∧
    xfp 1 (run 0x8113 ((regs12 0xAB 0).setV 15 1)) = (0, 0, 0x202) := by decide
/-- A11 (T2), A12. -/
theorem test_add : xfp 1 (run 0x8124 (regs12 0xFF 1)) = (0, 1, 0x202) ∧
    xfp 1 (run 0x8124 ((regs12 0xFE 1).setV 15 1)) = (0xFF, 0, 0x202) := by decide
/-- A16, A17: `X` and `Y` are 15. -/
theorem test_add_vf : (run 0x8F14 ((State.reset.setV 15 0x10).setV 1 1)).getV 15 = 0 ∧
    xfp 1 (run 0x81F4 ((State.reset.setV 15 3).setV 1 0xFE)) = (1, 1, 0x202) := by decide
/-- A18 (T3), A20. -/
theorem test_sub : xfp 1 (run 0x8125 ((regs12 5 0xA).setV 15 1)) = (0xFB, 0, 0x202) ∧
    xfp 1 (run 0x8125 (regs12 0xA 5)) = (5, 1, 0x202) := by decide
/-- A19, A22. -/
theorem test_sub_equal : xfp 1 (run 0x8125 (regs12 7 7)) = (0, 1, 0x202) ∧
    (run 0x8F15 ((State.reset.setV 15 5).setV 1 3)).getV 15 = 1 := by decide
/-- A26 (T5), A27. -/
theorem test_shr : xfp 1 (run 0x8126 (regs12 0xFF 0x81)) = (0x40, 1, 0x202) ∧
    xfp 1 (run 0x8126 ((regs12 0xFF 2).setV 15 1)) = (1, 0, 0x202) := by decide
/-- A23, A24. -/
theorem test_subn : xfp 1 (run 0x8127 ((regs12 0xA 5).setV 15 1)) = (0xFB, 0, 0x202) ∧
    xfp 1 (run 0x8127 (regs12 5 0xA)) = (5, 1, 0x202) := by decide
/-- A31, A32. -/
theorem test_shl : xfp 1 (run 0x812E (regs12 0xFF 0x81)) = (2, 1, 0x202) ∧
    xfp 1 (run 0x812E ((regs12 0 0x40).setV 15 1)) = (0x80, 0, 0x202) := by decide
/-- A34, A35: a Step with the random byte `A7`. -/
theorem test_rnd : xfp 3 (after (opStep 0xA7 (State.reset.withFetchWord 16 0xC30F))) = (7, 0, 0x202) ∧
    xfp 3 (after (opStep 0xA7 ((State.reset.setV 3 9).withFetchWord 16 0xC300))) = (0, 0, 0x202) := by decide
/-- The byte is consumed, and a Step without one draws the next free byte (log 1). -/
theorem test_rnd_free : (run 0xC3FF State.reset).getV 3 = Config.randomByte 0 &&& 0xFF ∧
    (run 0xC3FF State.reset).draws = 1 := ⟨rfl, by decide⟩

/-! Index and memory (M rows) -/

/-- M1 (T1). -/
theorem test_ldI : (run 0xA2F0 State.reset).i = 0x2F0 := by decide
/-- M3, M4. -/
theorem test_addI : let t := run 0xF31E (((State.reset.setI 0xFFF).setV 3 2).setV 15 7)
    t.i = 1 ∧ t.getV 15 = 7 ∧ (run 0xF31E ((State.reset.setI 0x1002).setV 3 1)).i = 3 := by decide
/-- M5, M8. -/
theorem test_ldF : (run 0xF029 (State.reset.setV 0 3)).i = 0x5F ∧ (run 0xF029 (State.reset.setV 0 0xFF)).i = 0x54B := by decide
/-- M9 (T6). -/
theorem test_ldB : let t := run 0xF133 ((regs12 0xFF 0).setI 0x300)
    [0x300, 0x301, 0x302].map (memRead t) = [2, 5, 5] ∧ t.i = 0x300 := by decide
/-- M12. -/
theorem test_ldB_wraps : let t := run 0xF133 ((regs12 0xEA 0).setI 0xFFE)
    [0xFFE, 0xFFF, 0].map (memRead t) = [2, 3, 4] ∧ t.i = 0xFFE := by decide
/-- M13. -/
theorem test_ldMemVx : let t := run 0xF155 (((regs12 0xC 0x77).setV 0 0x12).setI 0x208)
    [0x208, 0x209, 0x20A].map (memRead t) = [0x12, 0xC, 0] ∧ t.i = 0x20A := by decide
/-- M15. -/
theorem test_ldMemVx_wraps : let t := run 0xF255 (((regs12 0x22 0x33).setV 0 0x11).setI 0xFFE)
    [0xFFE, 0xFFF, 0, 1].map (memRead t) = [0x11, 0x22, 0x33, 0] ∧ t.i = 0x1001 := by decide
/-- M17. -/
theorem test_ldVxMem : let t := run 0xF265 ((atI 0x300 [2, 3, 4, 5]).setV 3 0x99)
    [0, 1, 2, 3].map (fun r : Nibble => t.getV r) = [2, 3, 4, 0x99] ∧ t.i = 0x303 := by decide
/-- M18: the glyph table, and `VF` loaded as data. -/
theorem test_ldVxMem_all : let t := run 0xFF65 (State.reset.setI 0x50)
    t.v.toList = [0xF0, 0x90, 0x90, 0x90, 0xF0, 0x20, 0x60, 0x20, 0x20, 0x70, 0xF0, 0x10, 0xF0, 0x80, 0xF0, 0xF0] ∧
    t.i = 0x60 := by decide

/-! Display (G rows) -/

/-- G1. -/
theorem test_cls : let t := run 0x00E0 ((State.reset.setV 15 1).setFB (Vector.replicate 32 0x8000000000000001))
    t.fb = Vector.replicate 32 0 ∧ t.getV 15 = 1 := by decide
/-- G10: a partial collision. -/
theorem test_drw_collision :
    let t := run 0xD011 ((atI 0x300 [0xF0]).setFB (Vector.replicate 32 0x18))
    row t 0 = 0x17 ∧ row t 1 = 0x18 ∧ t.getV 15 = 1 := by decide
/-- G7: the second column and the second row are clipped. -/
theorem test_drw_clips : let t := run 0xD012 (((atI 0x300 [0xC0, 0xC0]).setV 0 0xFF).setV 1 0xFF)
    row t 31 = 0x8000000000000000 ∧ row t 0 = 0 ∧ row t 30 = 0 ∧ t.getV 15 = 0 := by decide

/-! Keypad and timers (K rows) -/

/-- K3 (the index is masked), K2. -/
theorem test_skp : (run 0xE19E ((regs12 0x15 0).setKeys 0x20)).pc = 0x204 ∧
    (run 0xE19E ((regs12 5 0).setKeys 0x10)).pc = 0x202 := by decide
/-- K4, K5. -/
theorem test_sknp : (run 0xE1A1 ((regs12 5 0).setKeys 0x20)).pc = 0x202 ∧ (run 0xE1A1 (regs12 5 0)).pc = 0x204 := by decide
/-- K6. -/
theorem test_ldVxDT : let t := run 0xF407 (State.reset.setDT 3); t.getV 4 = 3 ∧ t.dt = 3 := by decide
/-- K7. -/
theorem test_ldDTVx : (run 0xF315 (State.reset.setV 3 5)).dt = 5 := by decide
/-- K8. -/
theorem test_ldSTVx : (run 0xF018 (State.reset.setV 0 0x1E)).st = 0x1E := by decide
/-- K9. -/
theorem test_ldVxK : let t := run 0xF30A (State.reset.setKeys 0x220)
    t.getV 3 = 5 ∧ t.kw = .waitingForRelease 5 3 ∧ t.pc = 0x202 := by decide
/-- K10. -/
theorem test_ldVxK_no_key : let s := (State.reset.setV 3 0x77).withFetchWord 16 0xF30A; after (step s) = s := by decide

/-! The external operations (T11, K14, K16, K17, L rows) -/

/-- K12, K13. -/
theorem test_tick : let t := opTick ((State.reset.setDT 2).setST 1)
    (t.dt, t.st) = (1, 0) ∧ ((opTick t).dt, (opTick t).st) = (0, 0) ∧ (opTick (opTick t)).dt = 0 := by decide
/-- K15, K16. -/
theorem test_wait : let s := (State.reset.setKeys 0x20).setKW (.waitingForRelease 5 3)
    after (step s) = s ∧ after (step (opKeyWrite 0x200 s)) = (opKeyWrite 0x200 s).setKW .idle := by decide
/-- K17. -/
theorem test_fault_sticky : let s := (State.reset.setFault 1).setDT 2
    after (step s) = s ∧ (opTick s).dt = 1 ∧ (opTick s).fault = 1 ∧ (opReset s).fault = 0 := by decide
/-- L1 (T10). -/
theorem test_load : let t := opLoad [0x12, 0x34, 0x56] State.reset
    [0x1FF, 0x200, 0x201, 0x202, 0x203].map (memRead t) = [0, 0x12, 0x34, 0x56, 0] ∧ t.pc = 0x200 := by decide
/-- L2, L3: 3584 bytes fit and 3585 do not. -/
theorem test_load_limit : oversized (List.replicate 3584 0xAA) = false ∧ oversized (List.replicate 3585 0xAA) = true := by
  simp only [oversized, List.length_replicate]
  decide
/-- L4. -/
theorem test_load_empty : opLoad [] State.reset = State.reset := by decide
/-- 10_state.md R22, R26: the first and the last glyph byte, and what lies around the table. -/
theorem test_reset_memory : [0x04F, 0x050, 0x09F, 0x0A0].map (memRead State.reset) = [0, 0xF0, 0x80, 0] := by decide
/-- 00_scope.md R4 and D26. -/
theorem test_ports : let p : PortsIn := ⟨false, false, 0, true, false, 0, false, 0, []⟩
    after (portCycle p (State.reset.setDT 2)) = State.reset.setDT 1 ∧
    isNext (portCycle { p with rst := true } State.reset) = false := by decide
/-- 00_scope.md R4: `waiting` and `fault`. -/
theorem test_port_outputs : let p : PortsIn := ⟨false, false, 0, false, false, 0, false, 0, []⟩
    (portsOut p (State.reset.setKW (.waitingForRelease 5 3))).waiting = true ∧ (portsOut p State.reset).waiting = false ∧
    (portsOut p (State.reset.setFault 2)).faultOut = 2 := by decide
/-- 43_display.md R113: bit `64*y + x`. -/
theorem test_fbOut : (fbOut (flipPixel State.reset 5 2)).getLsbD (64 * 2 + 5) = true := by decide +kernel

/-! The hypotheses of the statements are met: one theorem for each statement that has some, and where a statement has several
clauses a state for each, at the ends of its range. The theorem's name ends in the statement's. -/

theorem test_meets_DecodeOfEncodeIsIdentity : (Instr.sys 0x1E0).wf = true ∧ (Instr.undef 0x8128).wf = true ∧
    (Instr.drw 7 0xA 3).wf = true := by decide
theorem test_meets_EveryWordIsOneInstruction : (Instr.seReg 1 2 7).wf = true ∧ encode (.seReg 1 2 7) = 0x5127 := by decide
/-- The four sets at their ends, and a word of no set beside each. -/
theorem test_meets_UndefinedWordsAreNoOps :
    (∀ w ∈ [(0x0000 : Word), 0x01E0, 0x0FFF], unassignedIn0 w) ∧
    (∀ w ∈ [(0x8008 : Word), 0x8FFF, 0xE000, 0xEFFF, 0xF000, 0xFFFF], unassignedIn8EF w) ∧
    ∀ w ∈ [(0x00E0 : Word), 0x00EE, 0x1000, 0x800E, 0xE09E, 0xF065], ¬ unassignedIn0 w ∧ ¬ unassignedIn8EF w := by
  simp [unassignedIn0, unassignedIn8EF]
theorem test_meets_DecodeReadsTwoBytesBigEndian : (Instr.ldI 0x2F0).wf = true ∧ wordBytes (encode (.ldI 0x2F0)) = [0xA2, 0xF0] := by
  decide
theorem test_meets_MemoryMasksAndReadsBackWrites : Memory.wf (State.reset.withFetchWord 16 0x1234).mem = true ∧
    0x1300 % 4096 = 0x300 % 4096 ∧ 0x301 % 4096 ≠ 0x300 % 4096 := by decide
theorem test_meets_StepRunsTheDecodedInstruction : let s := State.reset.withFetchWord 16 0xA2F0
    s.fault = 0 ∧ s.kw = .idle ∧
    decode [memRead s s.pc.toNat, memRead s (s.pc.toNat + 1)] = .ok (.ldI 0x2F0, []) := ⟨by decide, by decide, rfl⟩
theorem test_meets_PlacedWordRunsNext : Memory.wf State.reset.mem = true := by decide
/-- The key still pressed, and released. -/
theorem test_meets_WaitCheckWatchesOneKey : let s := (State.reset.setKeys 0x20).setKW (.waitingForRelease 5 3)
    s.fault = 0 ∧ s.kw = .waitingForRelease 5 3 ∧ s.keys.getLsbD 5 = true ∧ (s.setKeys 0).keys.getLsbD 5 = false := by decide
theorem test_meets_FaultStopsStepsUntilReset : let s := State.reset.setFault 2
    s.fault ≠ 0 ∧ drive .tick s = .next (opTick s) ∧ DriverOp.tick ≠ .reset := ⟨by decide, rfl, by decide⟩
/-- A state with memory written, waiting for a key. -/
theorem test_meets_StepKeepsInvariant : let r := ((State.reset.withFetchWord 16 0xF155).setV 3 5).setKeys 0x20
    let s := r.setKW (.waitingForRelease 5 3)
    StateInv s ∧ step s = .next s :=
  ⟨{ memory := by decide, code := by decide, overflow := by decide, underflow := by decide, waiting := fun _ => by decide
     latched := fun k d h => by cases h; decide }, rfl⟩
/-- The two faults meet the invariant: a full stack under code 1, an empty one under code 2. -/
theorem test_meets_StepKeepsInvariant_faults :
    StateInv ((State.reset.setStack (Vector.replicate 16 0) 16).setFault 1) ∧ StateInv (State.reset.setFault 2) :=
  ⟨{ memory := by decide, code := by decide, overflow := by decide, underflow := by decide, waiting := by decide
     latched := fun k d h => by cases h },
   { memory := by decide, code := by decide, overflow := by decide, underflow := by decide, waiting := by decide
     latched := fun k d h => by cases h }⟩
theorem test_meets_EveryScheduleKeepsInvariant : StateInv State.reset ∧
    drive (.load [0x12, 0x34]) State.reset = .next (opLoad [0x12, 0x34] State.reset) ∧
    driveAll [.reset, .load [0x12, 0x34], .tick] State.reset = .next (opTick (opLoad [0x12, 0x34] (opReset State.reset))) :=
  ⟨{ memory := by decide, code := by decide, overflow := by decide, underflow := by decide, waiting := by decide
     latched := fun k d h => by cases h }, rfl, rfl⟩
/-- Each of the three outcomes. -/
theorem test_meets_OnlyCallAndRetRaise : let full := State.reset.setStack (Vector.replicate 16 0) 16
    exec (.jp 0x300) State.reset = .next (State.reset.setPc 0x300) ∧ exec (.call 0x400) full = .next (full.setFault 1) ∧
    exec .ret State.reset = .next (State.reset.setFault 2) := ⟨rfl, rfl, rfl⟩
/-- A skip taken, one not taken, CALL with room and without, RET with an entry and without, LD Vx,K with a key and without. -/
theorem test_meets_ProgramCounterAfterEachInstruction :
    let s := State.reset.setPc (0x300 + 2); let full := s.setStack (Vector.replicate 16 0x206) 16
    (after (exec (.seImm 0 0) s)).pc = 0x304 ∧ (after (exec (.seImm 0 1) s)).pc = 0x302 ∧
    (after (exec (.call 0x400) s)).pc = 0x400 ∧ (after (exec (.call 0x400) full)).pc = 0x302 ∧
    (after (exec .ret full)).pc = 0x206 ∧ (after (exec .ret s)).pc = 0x302 ∧
    (after (exec (.ldVxK 1) (s.setKeys 1))).pc = 0x302 ∧ (after (exec (.ldVxK 1) s)).pc = 0x300 := by decide
theorem test_meets_FlagRegisterIsZeroOrOne :
    exec (.orReg 1 2) (regs12 1 2) = .next ((regs12 3 2).setV 15 0) ∧ definesFlag (.orReg 1 2) = true ∧
    exec (.ldImm 1 7) State.reset = .next (State.reset.setV 1 7) ∧ definesFlag (.ldImm 1 7) = false ∧
    destReg (.ldImm 1 7) vf = false := ⟨by rfl, by decide, by rfl, by decide, by decide⟩
/-- A Step that writes each: `DT`, `ST`, the latch, the stack, memory, the framebuffer, the fault register. -/
theorem test_meets_StepsWriteOnlyTheirOwnState : let s := ((regs12 1 2).setI 0x300).setKeys 2
    (run 0xF115 s).dt ≠ s.dt ∧ (run 0xF118 s).st ≠ s.st ∧ (run 0xF10A s).kw ≠ s.kw ∧ (run 0x2400 s).sp ≠ s.sp ∧
    (run 0x00EE s).fault ≠ s.fault ∧ (run 0xF133 s).mem ≠ (s.withFetchWord 16 0xF133).mem ∧
    (run 0x00E0 (s.setFB (Vector.replicate 32 1))).fb ≠ Vector.replicate 32 1 := by decide
theorem test_meets_ControlFlowFrame : familyOf (.call 0x400) = .control ∧
    isNext (exec (.call 0x400) State.reset) = true := by decide
theorem test_meets_AluFrame : familyOf (.subReg 1 2) = .alu ∧ isNext (exec (.subReg 1 2) (regs12 5 7)) = true := by decide
/-- The stored bytes are outside `0x303`, which keeps its byte. -/
theorem test_meets_IndexMemoryFrame : let s := (regs12 5 7).setI 0x300
    familyOf (.ldB 1) = .index ∧ isNext (exec (.ldB 1) s) = true ∧ storeCount (.ldB 1) = 3 ∧
    ∀ k < storeCount (.ldB 1), mask12 0x303 ≠ effAddr s k := by decide
theorem test_meets_DisplayFrame : familyOf (.drw 1 2 5) = .display ∧ isNext (exec (.drw 1 2 5) State.reset) = true := by decide
theorem test_meets_KeypadTimerFrame : familyOf (.ldVxK 1) = .keypad ∧
    isNext (exec (.ldVxK 1) (State.reset.setKeys 2)) = true := by decide
/-- The sixteenth slot, and no slot left. -/
theorem test_meets_CallPushesTheReturnAddress : (State.reset.setStack (Vector.replicate 16 0) 15).sp.val = (15 : Fin 16).val ∧
    State.reset.sp.val = (0 : Fin 16).val ∧ (State.reset.setStack (Vector.replicate 16 0) 16).sp.val = 16 := by decide
/-- The last entry, the first, and none. -/
theorem test_meets_ReturnPopsTheNewestEntry : (State.reset.setStack (Vector.replicate 16 0) 1).sp.val = (0 : Fin 16).val + 1 ∧
    (State.reset.setStack (Vector.replicate 16 0) 16).sp.val = (15 : Fin 16).val + 1 ∧ State.reset.sp.val = 0 := by decide
theorem test_meets_ReturnComesBackFromCall : (State.reset.setStack (Vector.replicate 16 0) 15).sp.val < 16 := by decide
theorem test_meets_RegisterLoadsAndAddImmediate : (2 : Nibble) ≠ 1 := by decide
/-- `X` and a third register that are not `VF`. -/
theorem test_meets_AddSetsCarry : (1 : Nibble) ≠ vf ∧ (2 : Nibble) ≠ 1 ∧ (2 : Nibble) ≠ vf := by decide
/-- `X` at the end of its range. -/
theorem test_meets_SubtractionsSetNoBorrow : (14 : Nibble) ≠ vf ∧ (0 : Nibble) ≠ 14 ∧ (0 : Nibble) ≠ vf := by decide
/-- `X` at the start of its range. -/
theorem test_meets_ShiftsReadVy : (0 : Nibble) ≠ vf ∧ (14 : Nibble) ≠ 0 ∧ (14 : Nibble) ≠ vf := by decide
/-- A presented byte, and a state whose next Step fetches RND. -/
theorem test_meets_RandomIsMasked : let s := State.reset.withFetchWord 16 0xC30F
    (s.setRandom (some 0xA7) 0).rnd = some 0xA7 ∧ s.fault = 0 ∧ s.kw = .idle ∧ decodeWord (fetchWord s) = .rnd 3 0x0F ∧
    (2 : Nibble) ≠ 3 := by decide
/-- Another instruction, a fault, and a wait. -/
theorem test_meets_OnlyRndReadsTheRandomByte : usesRandom (.drw 0 1 5) = false ∧
    usesRandom (decodeWord (fetchWord State.reset)) = false ∧ (State.reset.setFault 1).fault ≠ 0 ∧
    (State.reset.setKW (.waitingForRelease 5 3)).kw ≠ .idle := by decide
/-- An address outside the three stored bytes, with the wrap at the top of memory. -/
theorem test_meets_BcdStoresThreeDigits : let s := State.reset.setI 0xFFE
    Memory.wf s.mem = true ∧ ∀ k < 3, 1 % 4096 ≠ (s.i.toNat + k) % 4096 := by decide
/-- `X` at its two ends, and an address outside the stored bytes. -/
theorem test_meets_DumpStoresRegistersAndAdvances : let s := State.reset.setI 0xFFE
    Memory.wf s.mem = true ∧ (0 : Nibble).toNat ≤ (0 : Nibble).toNat ∧ (15 : Nibble).toNat ≤ (15 : Nibble).toNat ∧
    ∀ k ≤ (15 : Nibble).toNat, 0xE % 4096 ≠ (s.i.toNat + k) % 4096 := by decide
/-- Two states that differ in the upper bits of `I`, `pc` and a stack entry. -/
theorem test_meets_UpperAddressBitsUnobservable : let s := State.reset.withFetchWord 16 0x00EE
    let t := ((s.setI 0x1000).setPc 0x1200).setStack (Vector.replicate 16 0xF000) 0
    SameLow s t ∧ isNext (step s) = true ∧ t ≠ s :=
  ⟨{ registers := by decide, index := by decide, counter := by decide, slots := by decide, pointer := by decide
     delay := by decide, sound := by decide, pixels := by decide, keys := by decide, latch := by decide
     fault := by decide, memory := by decide, random := by decide }, by decide, by decide⟩
/-- A set pixel under a set sprite bit. -/
theorem test_meets_DrawXorsTheSpriteAndReportsCollision : let s := (atI 0x300 [0x80]).setFB (Vector.replicate 32 1)
    pixel s 0 0 = true ∧ drwBit s 1 2 1 0 0 = true ∧ (2 : Nibble) ≠ vf := by decide
theorem test_meets_DrawingTwiceRestores : (1 : Nibble) ≠ vf ∧ (2 : Nibble) ≠ vf := by decide
/-- No key pressed; key 5 the lowest of two; key 0 pressed; key 15 alone. -/
theorem test_meets_AwaitKeyTakesTheLowestKey : State.reset.keys = 0 ∧
    (State.reset.setKeys 0x220).keys.getLsbD (5 : Nibble).toNat = true ∧
    (∀ j < (5 : Nibble).toNat, (State.reset.setKeys 0x220).keys.getLsbD j = false) ∧
    (State.reset.setKeys 1).keys.getLsbD (0 : Nibble).toNat = true ∧
    (State.reset.setKeys 0x8000).keys.getLsbD (15 : Nibble).toNat = true ∧
    (∀ j < (15 : Nibble).toNat, (State.reset.setKeys 0x8000).keys.getLsbD j = false) := by decide
theorem test_meets_SoundTimerAffectsNothing : step State.reset = .next (State.reset.setPc 0x202) := rfl
/-- The longest image that fits and the shortest that does not, and an address on each side of a short one. -/
theorem test_meets_LoadCopiesOrFails : Memory.wf State.reset.mem = true ∧
    (List.replicate 3584 (0xAA : Byte)).length ≤ 4096 - Config.loadOffset ∧
    (List.replicate 3585 (0xAA : Byte)).length > 4096 - Config.loadOffset ∧
    0x1FF < Config.loadOffset ∧ Config.loadOffset + [0x12, 0x34].length ≤ 0xFFF := by
  simp only [List.length_replicate]
  decide
theorem test_meets_ResetValues : 79 < Config.glyphData.length ∧ 0x4F < Config.glyphBase ∧ Config.glyphBase + 80 ≤ 0xA0 := by
  decide
/-- No request, each request alone, a stream longer than `load_len`, of its length and shorter, and two requests at once. -/
theorem test_meets_PortsIssueOneOperation :
    let p : PortsIn := ⟨false, false, 0xA7, false, false, 0x20, false, 2, [0x12, 0x34]⟩
    requests p = [] ∧ requests { p with rst := true } = [.reset] ∧ requests { p with stepReq := true } = [.step 0xA7] ∧
    requests { p with tickReq := true } = [.tick] ∧ requests { p with keyWe := true } = [.keyWrite 0x20] ∧
    requests { p with loadReq := true, loadLen := 1 } = [.load [0x12]] ∧
    requests { p with loadReq := true } = [.load [0x12, 0x34]] ∧
    streamShort { p with loadReq := true, loadLen := 3 } = true ∧ streamShort { p with loadReq := true } = false ∧
    (requests { p with rst := true, loadReq := true }).length ≥ 2 := by decide
/-- A load request at the longest image that fits and one byte over it, and none. -/
theorem test_meets_PortOutputsShowTheState :
    let p (n : BitVec 13) : PortsIn := ⟨false, false, 0, false, false, 0, true, n, List.replicate 3585 0xAA⟩
    (p 3584).loadReq = true ∧ (p 3585).loadLen.toNat ≤ (p 3585).loadData.length ∧
    (p 3584).loadLen.toNat = 4096 - Config.loadOffset ∧ (p 3585).loadLen.toNat > 4096 - Config.loadOffset ∧
    { p 3584 with loadReq := false }.loadReq = false := by
  simp only [List.length_replicate]
  decide

end Sys2Proof.Tests
end

section
/-! PROOF. The family of 20_memory.md: the byte order of the fetch. -/

namespace Sys2Proof.Machine

/-- The mask as the spec writes it, a bitwise and (20_memory.md R31). -/
theorem mask12_eq_and (a : Nat) : mask12 a = a &&& 0xFFF := (Nat.and_two_pow_sub_one_eq_mod a 12).symm

/-- An address and its masked form are read at one location (20_memory.md R31, R32). -/
@[simp] theorem memRead_mask12 (s : State) (a : Nat) : memRead s (mask12 a) = memRead s a := by
  simp only [memRead, mask12_mask12]

/-- Two bytes put together as a word: the first is the high one. -/
theorem toNat_append_byte (hi lo : Byte) : (hi ++ lo : Word).toNat = 256 * hi.toNat + lo.toNat := by
  rw [BitVec.toNat_append, ← Nat.shiftLeft_add_eq_or_of_lt lo.isLt, Nat.shiftLeft_eq, Nat.mul_comm]

/-- The fetched word by value, from the byte at `pc` and the byte after it (20_memory.md R33). -/
theorem toNat_fetchWord (s : State) :
    (fetchWord s).toNat = 256 * (memRead s s.pc.toNat).toNat + (memRead s (s.pc.toNat + 1)).toNat :=
  toNat_append_byte _ _

/-- Settles O9: the word is its two bytes high first, and reading at a masked address is reading at the address. -/
theorem fetchIsBigEndian : Obligations.FetchIsBigEndian := by
  intro s
  rw [← mask12_eq_and, ← mask12_eq_and, memRead_mask12, memRead_mask12]
  exact toNat_fetchWord s

end Sys2Proof.Machine
end

section
/-! PROOF. The family of 40_control_flow.md: the no-ops and the jump. -/

namespace Sys2Proof.Machine

/-- An immediate address is zero-extended: widening keeps its value. -/
@[simp] theorem toNat_immAddr (nnn : Addr) : (immAddr nnn).toNat = nnn.toNat :=
  BitVec.toNat_setWidth_of_le (by decide)

/-- SYS is a no-op after the fetch (40_control_flow.md R65). -/
@[simp] theorem exec_sys (s : State) (nnn : Addr) : exec (.sys nnn) s = .next s := rfl

/-- An undefined word is a no-op after the fetch, and no error (40_control_flow.md R66). -/
@[simp] theorem exec_undef (s : State) (w : Word) : exec (.undef w) s = .next s := rfl

/-- JP writes `pc` alone (40_control_flow.md R68). -/
@[simp] theorem exec_jp (s : State) (nnn : Addr) : exec (.jp nnn) s = .next (s.setPc (immAddr nnn)) := rfl

/-- Settles O27: each of the two arms answers the state it was given. -/
theorem noOpsChangeNothing : Obligations.NoOpsChangeNothing := by
  intro s nnn w
  exact ⟨exec_sys s nnn, exec_undef s w⟩

/-- Settles O28: the next state is the one `exec_jp` names, and its `pc` has the value of NNN. -/
theorem jumpGoesToItsTarget : Obligations.JumpGoesToItsTarget := by
  intro s nnn
  exact ⟨s.setPc (immAddr nnn), exec_jp s nnn, toNat_immAddr nnn, rfl⟩

end Sys2Proof.Machine
end

section
/-! PROOF. The family of 41_alu.md: the register loads and the addition of an immediate. -/

namespace Sys2Proof.Machine

/-- A register reads back what was written to it (10_state.md R10). -/
theorem State.setV_getV_same (s : State) (x : Nibble) (b : Byte) : (s.setV x b).getV x = b := by
  rw [State.setV_getV, if_pos rfl]

/-- A write to one register leaves the others (10_state.md R10). -/
theorem State.setV_getV_of_ne (s : State) {x r : Nibble} (b : Byte) (h : r ≠ x) : (s.setV x b).getV r = s.getV r := by
  rw [State.setV_getV, if_neg h]

/-- LD Vx,NN writes the byte to `V[x]` alone (41_alu.md R81). -/
@[simp] theorem exec_ldImm (s : State) (x : Nibble) (nn : Byte) : exec (.ldImm x nn) s = .next (s.setV x nn) := rfl

/-- ADD Vx,NN writes the wrapped sum to `V[x]` alone (41_alu.md R82). -/
@[simp] theorem exec_addImm (s : State) (x : Nibble) (nn : Byte) :
    exec (.addImm x nn) s = .next (s.setV x (s.getV x + nn)) := rfl

/-- LD Vx,Vy writes the old `V[y]` to `V[x]` alone (41_alu.md R83). -/
@[simp] theorem exec_ldReg (s : State) (x y : Nibble) : exec (.ldReg x y) s = .next (s.setV x (s.getV y)) := rfl

/-- Settles O34: each of the three is one register write, read back at x and absent at every other register; the byte sum
wraps at 256. -/
theorem registerLoadsAndAddImmediate : Obligations.RegisterLoadsAndAddImmediate := by
  intro s x y nn
  refine ⟨_, _, _, exec_ldImm s x nn, exec_addImm s x nn, exec_ldReg s x y, ?byte, ?sum, ?copy, ?others⟩
  case byte => exact s.setV_getV_same x nn
  case sum => rw [State.setV_getV_same, BitVec.toNat_add]
  case copy => exact s.setV_getV_same x (s.getV y)
  case others =>
    intro r hr
    exact ⟨s.setV_getV_of_ne _ hr, s.setV_getV_of_ne _ hr, s.setV_getV_of_ne _ hr⟩

end Sys2Proof.Machine
end

section
/-! PROOF. The family of 42_index_memory.md: the index register and the decimal digits. -/

namespace Sys2Proof.Machine

/-- A masked address fits the 16 bits of `I` (42_index_memory.md R101). -/
theorem toNat_ofNat_mask12 (a : Nat) : (BitVec.ofNat 16 (mask12 a)).toNat = mask12 a := by
  have hlt : mask12 a < 4096 := mask12_lt a
  rw [BitVec.toNat_ofNat]
  exact Nat.mod_eq_of_lt (by omega)

/-- LD I,NNN writes `I` alone (42_index_memory.md R100). -/
@[simp] theorem exec_ldI (s : State) (nnn : Addr) : exec (.ldI nnn) s = .next (s.setI (immAddr nnn)) := rfl

/-- ADD I,Vx writes the masked sum to `I` alone (42_index_memory.md R101). -/
@[simp] theorem exec_addI (s : State) (x : Nibble) :
    exec (.addI x) s = .next (s.setI (BitVec.ofNat 16 (mask12 (s.i.toNat + (s.getV x).toNat)))) := rfl

/-- Settles O41: each of the two is one write of `I`, of the immediate and of the masked sum. -/
theorem loadAndAddToIndex : Obligations.LoadAndAddToIndex := by
  intro s x nnn
  exact ⟨_, _, exec_ldI s nnn, exec_addI s x, toNat_immAddr nnn, rfl, toNat_ofNat_mask12 _, rfl⟩

/-- In a canonical memory a byte written is read back, at any address with the same mask (20_memory.md R31, R32). -/
theorem memRead_memWrite_same {s : State} {a a' : Nat} {b : Byte} (h : Memory.wf s.mem = true)
    (ha : mask12 a' = mask12 a) : memRead (memWrite s a b) a' = b := by
  unfold memRead memWrite
  rw [State.setMem_mem, ha]
  exact Memory.get_set_same h

/-- Two different bytes of an access at `I` stand in different locations, as the access is no longer than the memory
(42_index_memory.md, the addressing mode). -/
theorem effAddr_ne {s : State} {j k : Nat} (hj : j < Config.memSize) (hk : k < Config.memSize) (h : j ≠ k) :
    effAddr s j ≠ effAddr s k := by
  simp only [effAddr, mask12, indexAddr, Config.memSize] at *
  omega

/-- The hundreds digit by value (42_index_memory.md R103). -/
theorem toNat_bcdHundreds (b : Byte) : (bcdHundreds b).toNat = b.toNat / 100 := by
  have hb : b.toNat < 256 := b.isLt
  rw [bcdHundreds, BitVec.toNat_ofNat]
  exact Nat.mod_eq_of_lt (by omega)

/-- The tens digit by value (42_index_memory.md R103). -/
theorem toNat_bcdTens (b : Byte) : (bcdTens b).toNat = b.toNat / 10 % 10 := by
  rw [bcdTens, BitVec.toNat_ofNat]
  exact Nat.mod_eq_of_lt (by omega)

/-- The units digit by value (42_index_memory.md R103). -/
theorem toNat_bcdUnits (b : Byte) : (bcdUnits b).toNat = b.toNat % 10 := by
  rw [bcdUnits, BitVec.toNat_ofNat]
  exact Nat.mod_eq_of_lt (by omega)

/-- LD B,Vx makes three memory writes, of the digits from the hundreds on (42_index_memory.md R103). -/
theorem exec_ldB (s : State) (x : Nibble) :
    exec (.ldB x) s = .next (memWrite (memWrite (memWrite s (indexAddr s 0) (bcdHundreds (s.getV x)))
      (indexAddr s 1) (bcdTens (s.getV x))) (indexAddr s 2) (bcdUnits (s.getV x))) := rfl

/-- Settles O43: each digit is read back from its own write, which the writes after it miss, since the three locations
differ; a byte outside them is missed by all three writes. -/
theorem bcdStoresThreeDigits : Obligations.BcdStoresThreeDigits := by
  intro s x hwf
  have h01 : effAddr s 0 ≠ effAddr s 1 := effAddr_ne (by decide) (by decide) (by decide)
  have h02 : effAddr s 0 ≠ effAddr s 2 := effAddr_ne (by decide) (by decide) (by decide)
  have h12 : effAddr s 1 ≠ effAddr s 2 := effAddr_ne (by decide) (by decide) (by decide)
  refine ⟨_, exec_ldB s x, rfl, rfl, ?hundreds, ?tens, ?units, ?others⟩
  case hundreds =>
    change (memRead _ (indexAddr s 0)).toNat = _
    rw [memRead_memWrite_other h02, memRead_memWrite_other h01, memRead_memWrite_same hwf rfl, toNat_bcdHundreds]
  case tens =>
    change (memRead _ (indexAddr s 1)).toNat = _
    rw [memRead_memWrite_other h12, memRead_memWrite_same (memWrite_wf hwf) rfl, toNat_bcdTens]
  case units =>
    change (memRead _ (indexAddr s 2)).toNat = _
    rw [memRead_memWrite_same (memWrite_wf (memWrite_wf hwf)) rfl, toNat_bcdUnits]
  case others =>
    intro a ha
    have hmiss : ∀ k < 3, mask12 a ≠ effAddr s k := ha
    rw [memRead_memWrite_other (hmiss 2 (by decide)), memRead_memWrite_other (hmiss 1 (by decide)),
      memRead_memWrite_other (hmiss 0 (by decide))]

end Sys2Proof.Machine
end

section
/-! PROOF. The family of 43_display.md: the clearing of the screen. -/

namespace Sys2Proof.Machine

/-- CLS clears the framebuffer (43_display.md R110). -/
@[simp] theorem exec_cls (s : State) : exec .cls s = .next (clearFB s) := rfl

/-- Clearing writes the framebuffer alone, `VF` kept (43_display.md R110). -/
theorem clearFB_frame (s : State) : clearFB s = s.setFB (clearFB s).fb := rfl

/-- Settles O47: the next state is the cleared one, whose pixels `clearFB_pixel` reads and whose other fields are those of
`s`. -/
theorem clearScreen : Obligations.ClearScreen := by
  intro s
  exact ⟨clearFB s, exec_cls s, clearFB_pixel s, clearFB_frame s⟩

end Sys2Proof.Machine
end

section
/-! PROOF. The family of 44_keypad_timers.md: the lowest pressed key, the wait check and the timer transfers. -/

namespace Sys2Proof.Machine

/-- The scan finds a pressed key with none pressed below it (44_keypad_timers.md R123). -/
theorem firstKey_eq_some {s : State} {k : Nibble} (hdown : keyDown s k = true)
    (hlow : ∀ j < k.toNat, s.keys.getLsbD j = false) : firstKey s = some k := by
  have hfind : (List.range 16).find? (fun j => s.keys.getLsbD j) = some k.toNat :=
    List.find?_range_eq_some.mpr ⟨hdown, List.mem_range.mpr k.isLt, fun j hj => by rw [hlow j hj]; rfl⟩
  rw [firstKey, hfind, Option.map_some, BitVec.ofNat_toNat, BitVec.setWidth_eq]

/-- An empty keypad latch has no key down (10_state.md R18). -/
theorem keyDown_of_keys_zero {s : State} (h : s.keys = 0) (k : Nibble) : keyDown s k = false := by
  rw [keyDown, h]
  exact BitVec.getLsbD_zero

/-- The meaning of LD Vx,K (44_keypad_timers.md R123). -/
theorem exec_ldVxK (s : State) (x : Nibble) : exec (.ldVxK x) s = execLdVxK x s := rfl

/-- LD Vx,K takes the key the scan finds and waits for its release (44_keypad_timers.md R123). -/
theorem exec_ldVxK_of_key {s : State} {k : Nibble} (h : firstKey s = some k) (x : Nibble) :
    exec (.ldVxK x) s = .next ((s.setV x (k.setWidth 8)).setKW (.waitingForRelease k x)) := by
  rw [exec_ldVxK, execLdVxK, h]

/-- LD Vx,K rewinds `pc` when the scan finds no key (44_keypad_timers.md R123). -/
theorem exec_ldVxK_of_no_key {s : State} (h : firstKey s = none) (x : Nibble) :
    exec (.ldVxK x) s = .next (s.setPc (s.pc - 2)) := by
  rw [exec_ldVxK, execLdVxK, h, rewindPc]

/-- Settles O53, by what the scan finds: with no key found none is down, so the clause of a pressed key cannot apply; a key
found is down, so the latch is not empty, and it is the lowest key down. -/
theorem awaitKeyTakesTheLowestKey : Obligations.AwaitKeyTakesTheLowestKey := by
  intro s x
  cases hscan : firstKey s with
  | none =>
    refine ⟨_, exec_ldVxK_of_no_key hscan x, fun _ => rfl, fun k hdown _ => ?_⟩
    have hup : keyDown s k = false := firstKey_none hscan k
    exact absurd hdown (Bool.eq_false_iff.mp hup)
  | some l =>
    refine ⟨_, exec_ldVxK_of_key hscan x, fun hzero => ?empty, fun k hdown hlow => ?lowest⟩
    case empty =>
      obtain ⟨hdown, -⟩ := firstKey_some hscan
      have hup : keyDown s l = false := keyDown_of_keys_zero hzero l
      exact absurd hdown (Bool.eq_false_iff.mp hup)
    case lowest =>
      have hlk : l = k := Option.some.inj (hscan.symm.trans (firstKey_eq_some hdown hlow))
      rw [hlk]

/-- A Step that finds the latch waiting ends at the wait check (44_keypad_timers.md R127). -/
theorem step_of_waiting {s : State} {k d : Nibble} (hfault : s.fault = 0) (hkw : s.kw = .waitingForRelease k d) :
    step s = .next (if keyDown s k then s else s.setKW .idle) := by
  have hcheck : waitCheck s = some (if keyDown s k then s else s.setKW .idle) := waitCheck_cases.mpr ⟨k, d, hkw, rfl⟩
  rw [step, if_neg (by simp [halted, hfault]), hcheck]

/-- Settles O12: the Step's result is the wait check's, and `keyDown` is the latch's bit. -/
theorem waitCheckWatchesOneKey : Obligations.WaitCheckWatchesOneKey := fun _ _ _ => step_of_waiting

/-- LD Vx,DT writes `V[x]` alone (44_keypad_timers.md R122). -/
@[simp] theorem exec_ldVxDT (s : State) (x : Nibble) : exec (.ldVxDT x) s = .next (s.setV x s.dt) := rfl

/-- LD DT,Vx writes `DT` alone (44_keypad_timers.md R124). -/
@[simp] theorem exec_ldDTVx (s : State) (x : Nibble) : exec (.ldDTVx x) s = .next (s.setDT (s.getV x)) := rfl

/-- LD ST,Vx writes `ST` alone (44_keypad_timers.md R125). -/
@[simp] theorem exec_ldSTVx (s : State) (x : Nibble) : exec (.ldSTVx x) s = .next (s.setST (s.getV x)) := rfl

/-- The driver's Tick runs in every state (60_exceptions.md R137). -/
@[simp] theorem drive_tick (s : State) : drive .tick s = .next (opTick s) := rfl

/-- One tick by value, clamped at 0 by the truncated subtraction (60_exceptions.md R137). -/
theorem toNat_tickDown (b : Byte) : (tickDown b).toNat = b.toNat - 1 := by
  unfold tickDown
  split
  case isTrue hzero => rw [hzero]; rfl
  case isFalse hpos => bv_omega

/-- A Tick counts `DT` down (60_exceptions.md R137). -/
theorem opTick_dt_toNat (s : State) : (opTick s).dt.toNat = s.dt.toNat - 1 := toNat_tickDown s.dt

/-- A Tick counts `ST` down (60_exceptions.md R137). -/
theorem opTick_st_toNat (s : State) : (opTick s).st.toNat = s.st.toNat - 1 := toNat_tickDown s.st

/-- Settles O52: each of the three is one write, and a Tick after it counts down from the register's value. -/
theorem timerTransfers : Obligations.TimerTransfers := by
  intro s x
  refine ⟨_, _, _, exec_ldVxDT s x, exec_ldDTVx s x, exec_ldSTVx s x, s.setV_getV x s.dt, rfl,
    rfl, rfl, ⟨_, drive_tick _, ?delay⟩, rfl, rfl, ⟨_, drive_tick _, ?sound⟩⟩
  case delay => exact opTick_dt_toNat (s.setDT (s.getV x))
  case sound => exact opTick_st_toNat (s.setST (s.getV x))

end Sys2Proof.Machine
end

section
/-! PROOF. The family of 60_exceptions.md: Tick and KeyWrite. -/

namespace Sys2Proof.Machine

/-- A Tick writes the two timers alone (60_exceptions.md R137). -/
theorem opTick_frame (s : State) : opTick s = (s.setDT (opTick s).dt).setST (opTick s).st := rfl

/-- Settles O55: each timer by value, clamped at 0, and the frame. -/
theorem tickDecrementsAndClamps : Obligations.TickDecrementsAndClamps := fun s =>
  ⟨opTick s, drive_tick s, opTick_dt_toNat s, opTick_st_toNat s, opTick_frame s⟩

/-- The driver's KeyWrite runs in every state, and writes the latch (60_exceptions.md R138). -/
@[simp] theorem drive_keyWrite (k : BitVec 16) (s : State) : drive (.keyWrite k) s = .next (s.setKeys k) := rfl

/-- After a write of the latch a key is down exactly as its bit was written (60_exceptions.md R138). -/
@[simp] theorem keyDown_setKeys (s : State) (k : BitVec 16) (j : Nibble) :
    keyDown (s.setKeys k) j = k.getLsbD j.toNat := by
  rw [keyDown, State.setKeys_keys]

/-- Settles O56: the operation is one write of the latch, read back key by key. -/
theorem keyWriteOverwritesTheLatch : Obligations.KeyWriteOverwritesTheLatch := by
  intro s k
  refine ⟨s.setKeys k, drive_keyWrite k s, keyDown_setKeys s k, ?frame⟩
  case frame => rw [State.setKeys_keys]

end Sys2Proof.Machine
end

section
/-! PROOF. The family of 70_reset_and_hazards.md: the load of an image. -/

namespace Sys2Proof.Machine

/-- An address inside the memory is its own mask (20_memory.md R31). -/
theorem mask12_of_lt {a : Nat} (h : a < Config.memSize) : mask12 a = a := Nat.mod_eq_of_lt h

/-- A byte outside the stored range reads as before, in any memory (70_reset_and_hazards.md R152). -/
theorem memRead_storeBytes_other {bs : List Byte} {a a' : Nat} {s : State}
    (h : ∀ j < bs.length, mask12 a' ≠ mask12 (a + j)) : memRead (storeBytes bs a s) a' = memRead s a' := by
  induction bs generalizing a s with
  | nil => rfl
  | cons b bs ih =>
    have hhead : mask12 a' ≠ mask12 a := h 0 bs.length.succ_pos
    have htail : ∀ j < bs.length, mask12 a' ≠ mask12 (a + 1 + j) := fun j hj => by
      rw [Nat.add_right_comm]
      exact h (j + 1) (Nat.succ_lt_succ hj)
    rw [storeBytes, ih htail, memRead_memWrite_other hhead]

/-- In a canonical memory each byte of an image that ends inside the memory is read back: the first is written at `a` and
missed by the rest, which stand above it (70_reset_and_hazards.md R152). -/
theorem memRead_storeBytes {bs : List Byte} {a : Nat} {s : State} (hwf : Memory.wf s.mem = true)
    (hfit : a + bs.length ≤ Config.memSize) (j : Nat) (hj : j < bs.length) :
    memRead (storeBytes bs a s) (a + j) = bs[j] := by
  induction bs generalizing a s j with
  | nil => exact absurd hj (Nat.not_lt_zero j)
  | cons b bs ih =>
    rw [List.length_cons] at hfit hj
    rw [storeBytes]
    cases j with
    | zero =>
      have hmiss : ∀ k < bs.length, mask12 a ≠ mask12 (a + 1 + k) := fun k hk => by
        rw [mask12_of_lt (by omega), mask12_of_lt (by omega)]
        omega
      exact (memRead_storeBytes_other hmiss).trans (memRead_memWrite_same hwf rfl)
    | succ j =>
      rw [← Nat.add_assoc, Nat.add_right_comm]
      exact ih (memWrite_wf hwf) (by omega) j (by omega)

/-- The driver's Load runs in every state (70_reset_and_hazards.md R152, R153). -/
@[simp] theorem drive_load (bytes : List Byte) (s : State) : drive (.load bytes) s = .next (opLoad bytes s) := rfl

/-- What a Load answers (70_reset_and_hazards.md R153). -/
@[simp] theorem answer_load (bytes : List Byte) (s : State) :
    answer (.load bytes) s = if oversized bytes then .loadError else .done := rfl

/-- An image is oversized when it is longer than the memory from LOAD_OFFSET on (70_reset_and_hazards.md R153). -/
theorem oversized_iff {bytes : List Byte} :
    oversized bytes = true ↔ bytes.length > 4096 - Config.loadOffset := decide_eq_true_iff

/-- A Load of an image that fits stores its bytes at LOAD_OFFSET (70_reset_and_hazards.md R152). -/
theorem opLoad_of_fits {bytes : List Byte} (h : ¬ oversized bytes = true) (s : State) :
    opLoad bytes s = storeBytes bytes Config.loadOffset s := if_neg h

/-- A Load of an oversized image does nothing (70_reset_and_hazards.md R153). -/
theorem opLoad_of_oversized {bytes : List Byte} (h : oversized bytes = true) (s : State) : opLoad bytes s = s := if_pos h

/-- Settles O57, by whether the image fits: one that does is stored at LOAD_OFFSET, where its addresses are their own masks;
one that does not is refused before any write. Each case contradicts the other's clause. -/
theorem loadCopiesOrFails : Obligations.LoadCopiesOrFails := by
  intro s bytes hwf
  by_cases hover : oversized bytes = true
  · have hlong : bytes.length > 4096 - Config.loadOffset := oversized_iff.mp hover
    refine ⟨s, by rw [drive_load, opLoad_of_oversized hover], rfl, fun hfit => absurd hlong hfit.not_gt, fun _ => ⟨?_, rfl⟩⟩
    rw [answer_load, if_pos hover]
  · have hlen : bytes.length ≤ 4096 - Config.loadOffset := Nat.not_lt.mp (mt oversized_iff.mpr hover)
    have hfit : Config.loadOffset + bytes.length ≤ Config.memSize := Nat.add_le_of_le_sub' (by decide) hlen
    refine ⟨storeBytes bytes Config.loadOffset s, by rw [drive_load, opLoad_of_fits hover], storeBytes_frame .., fun _ =>
      ⟨?answer, memRead_storeBytes hwf hfit, ?others⟩, fun hlong => absurd hlong hlen.not_gt⟩
    case answer => rw [answer_load, if_neg hover]
    case others =>
      intro a ha hout
      refine memRead_storeBytes_other fun j hj => ?_
      rw [mask12_of_lt ha, mask12_of_lt (by omega)]
      omega

end Sys2Proof.Machine
end

section
/-! PROOF. The family of 30_encoding.md: the decoder and the encoder. -/

namespace Sys2Proof

/-! The fields of a word, by value (30_encoding.md R47) -/

theorem toNat_famOf (w : Word) : (famOf w).toNat = w.toNat / 4096 := by
  rw [famOf, BitVec.extractLsb'_toNat, Nat.shiftRight_eq_div_pow]
  exact Nat.mod_eq_of_lt (by omega)

theorem toNat_xOf (w : Word) : (xOf w).toNat = w.toNat / 256 % 16 := by
  rw [xOf, BitVec.extractLsb'_toNat, Nat.shiftRight_eq_div_pow]

theorem toNat_yOf (w : Word) : (yOf w).toNat = w.toNat / 16 % 16 := by
  rw [yOf, BitVec.extractLsb'_toNat, Nat.shiftRight_eq_div_pow]

theorem toNat_nOf (w : Word) : (nOf w).toNat = w.toNat % 16 := by
  rw [nOf, BitVec.extractLsb'_toNat, Nat.shiftRight_zero]

theorem toNat_nnOf (w : Word) : (nnOf w).toNat = w.toNat % 256 := by
  rw [nnOf, BitVec.extractLsb'_toNat, Nat.shiftRight_zero]

theorem toNat_nnnOf (w : Word) : (nnnOf w).toNat = w.toNat % 4096 := by
  rw [nnnOf, BitVec.extractLsb'_toNat, Nat.shiftRight_zero]

/-- Settles O4: each field is its lemma by value. -/
theorem decodedFieldsAreTheNibbles : Obligations.DecodedFieldsAreTheNibbles := fun w =>
  ⟨toNat_famOf w, toNat_xOf w, toNat_yOf w, toNat_nOf w, toNat_nnOf w, toNat_nnnOf w⟩

/-! The fields of a word written as its fields (30_encoding.md R48) -/

section Fields

variable (f x y n : Nibble) (nn : Byte) (nnn : Addr)

/-- A word of a nibble, a byte and a nibble as a number. -/
theorem toNat_nibbleByteNibble : (f ++ nn ++ n : Word).toNat = f.toNat * 4096 + nn.toNat * 16 + n.toNat := by
  simp only [BitVec.toNat_append]
  rw [← Nat.shiftLeft_add_eq_or_of_lt n.isLt, ← Nat.shiftLeft_add_eq_or_of_lt nn.isLt]
  simp only [Nat.shiftLeft_eq]
  omega

@[simp] theorem famOf_nibbles : famOf (f ++ x ++ y ++ n) = f :=
  BitVec.eq_of_toNat_eq (by rw [toNat_famOf, toNat_nibbles]; omega)

@[simp] theorem xOf_nibbles : xOf (f ++ x ++ y ++ n) = x :=
  BitVec.eq_of_toNat_eq (by rw [toNat_xOf, toNat_nibbles]; omega)

@[simp] theorem yOf_nibbles : yOf (f ++ x ++ y ++ n) = y :=
  BitVec.eq_of_toNat_eq (by rw [toNat_yOf, toNat_nibbles]; omega)

@[simp] theorem nOf_nibbles : nOf (f ++ x ++ y ++ n) = n :=
  BitVec.eq_of_toNat_eq (by rw [toNat_nOf, toNat_nibbles]; omega)

@[simp] theorem famOf_nibbleByteNibble : famOf (f ++ nn ++ n) = f :=
  BitVec.eq_of_toNat_eq (by rw [toNat_famOf, toNat_nibbleByteNibble]; omega)

@[simp] theorem nOf_nibbleByteNibble : nOf (f ++ nn ++ n) = n :=
  BitVec.eq_of_toNat_eq (by rw [toNat_nOf, toNat_nibbleByteNibble]; omega)

@[simp] theorem famOf_nibblesByte : famOf (f ++ x ++ nn) = f :=
  BitVec.eq_of_toNat_eq (by rw [toNat_famOf, toNat_nibblesByte]; omega)

@[simp] theorem xOf_nibblesByte : xOf (f ++ x ++ nn) = x :=
  BitVec.eq_of_toNat_eq (by rw [toNat_xOf, toNat_nibblesByte]; omega)

@[simp] theorem nnOf_nibblesByte : nnOf (f ++ x ++ nn) = nn :=
  BitVec.eq_of_toNat_eq (by rw [toNat_nnOf, toNat_nibblesByte]; omega)

@[simp] theorem famOf_nibbleAddr : famOf (f ++ nnn) = f :=
  BitVec.eq_of_toNat_eq (by rw [toNat_famOf, toNat_nibbleAddr]; omega)

@[simp] theorem nnnOf_nibbleAddr : nnnOf (f ++ nnn) = nnn :=
  BitVec.eq_of_toNat_eq (by rw [toNat_nnnOf, toNat_nibbleAddr]; omega)

end Fields

/-! A word put together from its fields -/

theorem nibbles_of_fields (w : Word) : famOf w ++ xOf w ++ yOf w ++ nOf w = w :=
  BitVec.eq_of_toNat_eq (by rw [toNat_nibbles, toNat_famOf, toNat_xOf, toNat_yOf, toNat_nOf]; omega)

theorem nibblesByte_of_fields (w : Word) : famOf w ++ xOf w ++ nnOf w = w :=
  BitVec.eq_of_toNat_eq (by rw [toNat_nibblesByte, toNat_famOf, toNat_xOf, toNat_nnOf]; omega)

theorem nibbleAddr_of_fields (w : Word) : famOf w ++ nnnOf w = w :=
  BitVec.eq_of_toNat_eq (by rw [toNat_nibbleAddr, toNat_famOf, toNat_nnnOf]; omega)

/-- A word's family by its quotient. -/
theorem famOf_eq_iff {w : Word} {f : Nibble} : famOf w = f ↔ w.toNat / 4096 = f.toNat := by
  rw [← BitVec.toNat_inj, toNat_famOf]

/-! The holes (30_encoding.md R56) -/

/-- The holes by the word's fields: the low fields that the inner switches of families 8, E and F do not list. -/
theorem isHole_iff_fields {w : Word} : isHole w = true ↔
    famOf w = 0x8 ∧ (nOf w).toNat ∉ [0x0, 0x1, 0x2, 0x3, 0x4, 0x5, 0x6, 0x7, 0xE] ∨
    famOf w = 0xE ∧ (nnOf w).toNat ∉ [0x9E, 0xA1] ∨
    famOf w = 0xF ∧ (nnOf w).toNat ∉ [0x07, 0x0A, 0x15, 0x18, 0x1E, 0x29, 0x33, 0x55, 0x65] := by
  have hfam : (w.extractLsb' 12 4).toNat = (famOf w).toNat := rfl
  simp only [← BitVec.toNat_inj]
  unfold isHole
  rw [hfam]
  split
  case h_1 h8 => simp [h8, nOf]
  case h_2 hE => simp [hE, nnOf]
  case h_3 hF => simp [hF, nnOf]
  case h_4 h8 hE hF => simpa using ⟨fun h => (h8 h).elim, fun h => (hE h).elim, fun h => (hF h).elim⟩

/-- A nibble that family 8 does not list is one of the others. -/
theorem nibble_not_listed_iff (m : Nat) (h : m < 16) :
    m ∉ [0x0, 0x1, 0x2, 0x3, 0x4, 0x5, 0x6, 0x7, 0xE] ↔ m ∈ [0x8, 0x9, 0xA, 0xB, 0xC, 0xD, 0xF] := by
  interval_cases m <;> decide

/-- The holes by quotients and remainders, the form of the spec's set. -/
theorem isHole_iff {w : Word} : isHole w = true ↔ Machine.unassignedIn8EF w := by
  rw [isHole_iff_fields, nibble_not_listed_iff _ (nOf w).isLt, famOf_eq_iff, famOf_eq_iff, famOf_eq_iff, toNat_nOf,
    toNat_nnOf]
  rfl

/-- A hole is decoded to itself: none of the rows of its family has its low field. -/
theorem decodeWord_of_isHole {w : Word} (h : isHole w = true) : decodeWord w = .undef w := by
  obtain ⟨hfam, hlow⟩ | ⟨hfam, hlow⟩ | ⟨hfam, hlow⟩ := isHole_iff_fields.mp h
  · simp only [decodeWord, hfam, decodeFam8]
    split <;> simp_all
  · simp only [decodeWord, hfam, decodeFamE]
    split <;> simp_all
  · simp only [decodeWord, hfam, decodeFamF]
    split <;> simp_all

/-! Decode and encode -/

/-- SYS covers family 0 but for CLS and RET (30_encoding.md R51). -/
theorem sysOperandOk_iff {nnn : Addr} : sysOperandOk nnn = true ↔ nnn ≠ 0x0E0 ∧ nnn ≠ 0x0EE := by
  simp [sysOperandOk]

/-- Family 0 is decoded to SYS but for the words of CLS and RET (30_encoding.md R51). -/
theorem decodeFam0_of_sysOperandOk {w : Word} (h : sysOperandOk (nnnOf w) = true) :
    decodeFam0 w = .sys (nnnOf w) := by
  obtain ⟨hcls, hret⟩ := sysOperandOk_iff.mp h
  unfold decodeFam0
  split
  case h_1 heq => exact absurd (BitVec.eq_of_toNat_eq heq) hcls
  case h_2 heq => exact absurd (BitVec.eq_of_toNat_eq heq) hret
  case h_3 => rfl

/-- Settles O1, by the instruction: its word's family, and where the family has an inner switch its low field, are the ones
its constructor was given, so the two switches lead back to it. A SYS is not CLS or RET, and an UNDEF is a hole. -/
theorem decodeOfEncodeIsIdentity : Obligations.DecodeOfEncodeIsIdentity := by
  intro i hwf
  cases i
  case cls => rfl
  case ret => rfl
  case undef w => exact decodeWord_of_isHole hwf
  case sys nnn =>
    have hok : sysOperandOk (nnnOf (0x0#4 ++ nnn)) = true := by rw [nnnOf_nibbleAddr]; exact hwf
    simp [encode, decodeWord, decodeFam0_of_sysOperandOk hok]
  all_goals simp [encode, decodeWord, decodeFam8, decodeFamE, decodeFamF]

/-- The instruction stands for this word: it is well-formed and the word is its encoding. -/
def StandsFor (i : Instr) (w : Word) : Prop := i.wf = true ∧ encode i = w

/-- A field with a known value is that numeral. -/
theorem field_eq_ofNat {n m : Nat} {f : BitVec n} (h : f.toNat = m) : f = BitVec.ofNat n m := (BitVec.toNat_eq_nat.mp h).2

section InnerSwitches

variable {w : Word}

theorem decodeFam0_standsFor (h : famOf w = 0x0) : StandsFor (decodeFam0 w) w := by
  have hw := nibbleAddr_of_fields w
  rw [h] at hw
  unfold decodeFam0
  split
  case h_1 heq => rw [field_eq_ofNat heq] at hw; exact ⟨rfl, hw⟩
  case h_2 heq => rw [field_eq_ofNat heq] at hw; exact ⟨rfl, hw⟩
  case h_3 hcls hret =>
    exact ⟨sysOperandOk_iff.mpr ⟨fun e => hcls (congrArg _ e), fun e => hret (congrArg _ e)⟩, hw⟩

theorem decodeFam8_standsFor (h : famOf w = 0x8) : StandsFor (decodeFam8 w) w := by
  have hw := nibbles_of_fields w
  rw [h] at hw
  unfold decodeFam8
  split
  case h_10 => exact ⟨isHole_iff_fields.mpr (.inl ⟨h, by simp_all⟩), rfl⟩
  all_goals
    rename_i heq
    rw [field_eq_ofNat heq] at hw
    exact ⟨rfl, hw⟩

theorem decodeFamE_standsFor (h : famOf w = 0xE) : StandsFor (decodeFamE w) w := by
  have hw := nibblesByte_of_fields w
  rw [h] at hw
  unfold decodeFamE
  split
  case h_3 => exact ⟨isHole_iff_fields.mpr (.inr (.inl ⟨h, by simp_all⟩)), rfl⟩
  all_goals
    rename_i heq
    rw [field_eq_ofNat heq] at hw
    exact ⟨rfl, hw⟩

theorem decodeFamF_standsFor (h : famOf w = 0xF) : StandsFor (decodeFamF w) w := by
  have hw := nibblesByte_of_fields w
  rw [h] at hw
  unfold decodeFamF
  split
  case h_10 => exact ⟨isHole_iff_fields.mpr (.inr (.inr ⟨h, by simp_all⟩)), rfl⟩
  all_goals
    rename_i heq
    rw [field_eq_ofNat heq] at hw
    exact ⟨rfl, hw⟩

end InnerSwitches

/-- The decoder loses nothing: what it reads from a word stands for that word. Each family of the outer switch keeps the
fields of its format (30_encoding.md R48, R50). -/
theorem decodeWord_standsFor (w : Word) : StandsFor (decodeWord w) w := by
  have haddr := nibbleAddr_of_fields w
  have hbyte := nibblesByte_of_fields w
  have hnibbles := nibbles_of_fields w
  unfold decodeWord
  split
  case h_1 hfam => exact decodeFam0_standsFor (field_eq_ofNat hfam)
  case h_9 hfam => exact decodeFam8_standsFor (field_eq_ofNat hfam)
  case h_15 hfam => exact decodeFamE_standsFor (field_eq_ofNat hfam)
  case h_16 =>
    refine decodeFamF_standsFor (field_eq_ofNat (m := 15) ?_)
    have hlt : (famOf w).toNat < 16 := (famOf w).isLt
    grind
  all_goals
    rename_i hfam
    rw [field_eq_ofNat hfam] at haddr hbyte hnibbles
    refine ⟨rfl, ?_⟩
    assumption

/-- Settles O2: the word's instruction is the decoded one, and O1 decodes any other of the same word to itself. -/
theorem everyWordIsOneInstruction : Obligations.EveryWordIsOneInstruction := by
  intro w
  obtain ⟨hwf, hword⟩ := decodeWord_standsFor w
  refine ⟨hwf, hword, fun i hi hiw => ?_⟩
  rw [← hiw, decodeOfEncodeIsIdentity i hi]

/-- SYS is decoded from the words of family 0 that are not CLS or RET, by quotient and remainder (30_encoding.md R51). -/
theorem unassignedIn0_iff {w : Word} : Machine.unassignedIn0 w ↔ famOf w = 0x0 ∧ sysOperandOk (nnnOf w) = true := by
  rw [famOf_eq_iff, sysOperandOk_iff, ne_eq, ne_eq, ← BitVec.toNat_inj, ← BitVec.toNat_inj, toNat_nnnOf]
  simp [Machine.unassignedIn0]

/-- The words of SYS are the unassigned ones of family 0 (30_encoding.md R51, R56). -/
theorem decodeWord_eq_sys_iff {w : Word} : Machine.unassignedIn0 w ↔ ∃ nnn, decodeWord w = .sys nnn := by
  rw [unassignedIn0_iff]
  constructor
  · rintro ⟨hfam, hok⟩
    exact ⟨nnnOf w, by simp [decodeWord, hfam, decodeFam0_of_sysOperandOk hok]⟩
  · rintro ⟨nnn, hdec⟩
    obtain ⟨hwf, hword⟩ := decodeWord_standsFor w
    rw [hdec] at hwf hword
    rw [← hword, encode, famOf_nibbleAddr, nnnOf_nibbleAddr]
    exact ⟨rfl, hwf⟩

/-- The words of UNDEF are the holes of families 8, E and F (30_encoding.md R56). -/
theorem decodeWord_eq_undef_iff {w : Word} : Machine.unassignedIn8EF w ↔ ∃ u, decodeWord w = .undef u := by
  rw [← isHole_iff]
  constructor
  · exact fun hhole => ⟨w, decodeWord_of_isHole hhole⟩
  · rintro ⟨u, hdec⟩
    obtain ⟨hwf, hword⟩ := decodeWord_standsFor w
    rw [hdec] at hwf hword
    rwa [← hword]

/-- Settles O5: the two sets are the decoded instructions' words, and both instructions are no-ops. -/
theorem undefinedWordsAreNoOps : Obligations.UndefinedWordsAreNoOps := by
  intro w s
  refine ⟨decodeWord_eq_sys_iff, decodeWord_eq_undef_iff, ?noop⟩
  rintro (h0 | h8EF)
  · obtain ⟨nnn, hdec⟩ := decodeWord_eq_sys_iff.mp h0
    rw [hdec, Machine.exec_sys]
  · obtain ⟨u, hdec⟩ := decodeWord_eq_undef_iff.mp h8EF
    rw [hdec, Machine.exec_undef]

/-- A word's two bytes, high byte first, are the word (20_memory.md R33). -/
theorem highByte_append_lowByte (w : Word) : highByte w ++ lowByte w = w := by
  refine BitVec.eq_of_toNat_eq ?_
  rw [Machine.toNat_append_byte, highByte, lowByte, BitVec.extractLsb'_toNat, BitVec.extractLsb'_toNat,
    Nat.shiftRight_eq_div_pow, Nat.shiftRight_zero]
  omega

/-- The byte decoder reads the word of the first two bytes (20_memory.md R33). -/
theorem decode_wordBytes (w : Word) (rest : List Byte) : decode (wordBytes w ++ rest) = .ok (decodeWord w, rest) := by
  conv_rhs => rw [← highByte_append_lowByte w]
  rfl

/-- Settles O6: the two bytes are put together to the instruction's word, which O1 decodes. -/
theorem decodeReadsTwoBytesBigEndian : Obligations.DecodeReadsTwoBytesBigEndian := by
  refine ⟨fun i rest hwf => ?_, rfl, fun _ => rfl⟩
  rw [decode_wordBytes, decodeOfEncodeIsIdentity i hwf]

/-- Settles O7: nine closed evaluations of the decoder. -/
theorem sampleWordsDecode : Obligations.SampleWordsDecode := by
  unfold Obligations.SampleWordsDecode
  decide

/-! The opcode table (30_encoding.md R49): a row's mask compares whole fields -/

theorem and_mask_FFFF_eq_iff {w p : Word} : w &&& 0xFFFF = p ↔ famOf w = famOf p ∧ nnnOf w = nnnOf p := by
  have hmask : w &&& 0xFFFF = w := BitVec.and_allOnes
  rw [hmask]
  refine ⟨fun h => h ▸ ⟨rfl, rfl⟩, fun ⟨hfam, hnnn⟩ => ?_⟩
  rw [← nibbleAddr_of_fields w, ← nibbleAddr_of_fields p, hfam, hnnn]

theorem and_mask_F0FF_eq_iff {w p : Word} (hp : p &&& 0xF0FF = p) :
    w &&& 0xF0FF = p ↔ famOf w = famOf p ∧ nnOf w = nnOf p := by
  have hmask (u : Word) : u &&& 0xF0FF = famOf u ++ 0#4 ++ nnOf u := by
    conv_lhs => rw [← nibblesByte_of_fields u]
    exact nibblesByte_mask_F0FF ..
  refine ⟨fun h => ?_, fun ⟨hfam, hnn⟩ => ?_⟩
  · rw [← h, hmask, famOf_nibblesByte, nnOf_nibblesByte]
    exact ⟨rfl, rfl⟩
  · rw [← hp, hmask, hmask, hfam, hnn]

theorem and_mask_F00F_eq_iff {w p : Word} (hp : p &&& 0xF00F = p) :
    w &&& 0xF00F = p ↔ famOf w = famOf p ∧ nOf w = nOf p := by
  have hmask (u : Word) : u &&& 0xF00F = famOf u ++ 0#8 ++ nOf u := by
    conv_lhs => rw [← nibbles_of_fields u]
    exact nibbles_mask_F00F ..
  refine ⟨fun h => ?_, fun ⟨hfam, hn⟩ => ?_⟩
  · rw [← h, hmask, famOf_nibbleByteNibble, nOf_nibbleByteNibble]
    exact ⟨rfl, rfl⟩
  · rw [← hp, hmask, hmask, hfam, hn]

theorem and_mask_F000_eq_iff {w p : Word} (hp : p &&& 0xF000 = p) : w &&& 0xF000 = p ↔ famOf w = famOf p := by
  have hmask (u : Word) : u &&& 0xF000 = famOf u ++ 0#12 := by
    conv_lhs => rw [← nibbleAddr_of_fields u]
    exact nibbleAddr_mask_F000 ..
  refine ⟨fun h => ?_, fun hfam => ?_⟩
  · rw [← h, hmask, famOf_nibbleAddr]
  · rw [← hp, hmask, hmask, hfam]

/-- What a row of the table compares, by its mask: whole fields of the word. -/
def OpcodeRow.comparesFields (r : OpcodeRow) (f : Nibble) (nnn : Addr) (nn : Byte) (n : Nibble) : Bool :=
  if r.mask = 0xFFFF then f == famOf r.pat && nnn == nnnOf r.pat
  else if r.mask = 0xF0FF then f == famOf r.pat && nn == nnOf r.pat
  else if r.mask = 0xF00F then f == famOf r.pat && n == nOf r.pat
  else if r.mask = 0xF000 then f == famOf r.pat
  else true

section ComparesFields

variable {r : OpcodeRow} {f : Nibble} {nnn : Addr} {nn : Byte} {n : Nibble}

theorem comparesFields_of_mask_FFFF (h : r.mask = 0xFFFF) :
    r.comparesFields f nnn nn n = true ↔ f = famOf r.pat ∧ nnn = nnnOf r.pat := by
  simp [OpcodeRow.comparesFields, h]

theorem comparesFields_of_mask_F0FF (h : r.mask = 0xF0FF) :
    r.comparesFields f nnn nn n = true ↔ f = famOf r.pat ∧ nn = nnOf r.pat := by
  simp [OpcodeRow.comparesFields, h]

theorem comparesFields_of_mask_F00F (h : r.mask = 0xF00F) :
    r.comparesFields f nnn nn n = true ↔ f = famOf r.pat ∧ n = nOf r.pat := by
  simp [OpcodeRow.comparesFields, h]

theorem comparesFields_of_mask_F000 (h : r.mask = 0xF000) :
    r.comparesFields f nnn nn n = true ↔ f = famOf r.pat := by
  simp [OpcodeRow.comparesFields, h]

theorem comparesFields_of_mask_0000 (h : r.mask = 0x0000) : r.comparesFields f nnn nn n = true := by
  simp [OpcodeRow.comparesFields, h]

end ComparesFields

/-- Every row of the table has one of the five masks and sets no bit outside it. -/
theorem opcodeTable_masks : ∀ r ∈ opcodeTable,
    r.mask ∈ [0xFFFF, 0xF0FF, 0xF00F, 0xF000, 0x0000] ∧ r.pat &&& r.mask = r.pat := by
  decide

/-- A row of the table matches a word when the fields it compares agree. -/
theorem matches_eq_comparesFields {r : OpcodeRow} (hr : r ∈ opcodeTable) (w : Word) :
    (w &&& r.mask == r.pat) = r.comparesFields (famOf w) (nnnOf w) (nnOf w) (nOf w) := by
  obtain ⟨hmask, hpat⟩ := opcodeTable_masks r hr
  rw [Bool.eq_iff_iff, beq_iff_eq]
  simp only [List.mem_cons, List.not_mem_nil, or_false] at hmask
  obtain h | h | h | h | h := hmask <;> rw [h] at hpat ⊢
  · rw [and_mask_FFFF_eq_iff, comparesFields_of_mask_FFFF h]
  · rw [and_mask_F0FF_eq_iff hpat, comparesFields_of_mask_F0FF h]
  · rw [and_mask_F00F_eq_iff hpat, comparesFields_of_mask_F00F h]
  · rw [and_mask_F000_eq_iff hpat, comparesFields_of_mask_F000 h]
  · exact iff_of_true (BitVec.and_zero.trans (BitVec.and_zero.symm.trans hpat)) (comparesFields_of_mask_0000 h)

/-- The first row that compares its fields equal. -/
def rowOfFields (f : Nibble) (nnn : Addr) (nn : Byte) (n : Nibble) : Option OpcodeRow :=
  opcodeTable.find? fun r => r.comparesFields f nnn nn n

/-- The table-driven decoder reads the word's fields alone. -/
theorem tableRowOf_eq (w : Word) : tableRowOf w = rowOfFields (famOf w) (nnnOf w) (nnOf w) (nOf w) :=
  List.find?_congr fun _ hr => matches_eq_comparesFields hr w

/-- In family 0 the row of SYS is the first one for every address but those of CLS and RET. -/
theorem rowOfFields_sys {nnn : Addr} (hcls : nnn ≠ 0x0E0) (hret : nnn ≠ 0x0EE) (nn : Byte) (n : Nibble) :
    (rowOfFields 0x0 nnn nn n).map (fun r => r.name) = some "SYS_NNN" := by
  have hrows : opcodeTable = ⟨"CLS", 0xFFFF, 0x00E0⟩ :: ⟨"RET", 0xFFFF, 0x00EE⟩ :: opcodeTable.drop 2 := rfl
  rw [rowOfFields, hrows, List.find?_cons_of_neg, List.find?_cons_of_neg]
  · rfl
  · exact fun hrow => hret ((comparesFields_of_mask_FFFF rfl).mp hrow).2
  · exact fun hrow => hcls ((comparesFields_of_mask_FFFF rfl).mp hrow).2

/-- The rows of families 8, E and F compare the low fields that `isHole` lists. -/
theorem opcodeTable_listed : ∀ r ∈ opcodeTable.dropLast,
    (famOf r.pat = 0x8 → r.mask = 0xF00F ∧ (nOf r.pat).toNat ∈ [0x0, 0x1, 0x2, 0x3, 0x4, 0x5, 0x6, 0x7, 0xE]) ∧
    (famOf r.pat = 0xE → r.mask = 0xF0FF ∧ (nnOf r.pat).toNat ∈ [0x9E, 0xA1]) ∧
    (famOf r.pat = 0xF →
      r.mask = 0xF0FF ∧ (nnOf r.pat).toNat ∈ [0x07, 0x0A, 0x15, 0x18, 0x1E, 0x29, 0x33, 0x55, 0x65]) := by
  decide

/-- Every row but the catch-all compares the family. -/
theorem famOf_of_comparesFields {r : OpcodeRow} (hr : r ∈ opcodeTable.dropLast) {f : Nibble} {nnn : Addr} {nn : Byte}
    {n : Nibble} (h : r.comparesFields f nnn nn n = true) : f = famOf r.pat := by
  have hmasks : ∀ r ∈ opcodeTable.dropLast, r.mask ≠ 0x0000 := by decide
  obtain ⟨hmask, -⟩ := opcodeTable_masks r (List.mem_of_mem_dropLast hr)
  simp only [List.mem_cons, List.not_mem_nil, or_false] at hmask
  obtain hm | hm | hm | hm | hm := hmask
  · exact ((comparesFields_of_mask_FFFF hm).mp h).1
  · exact ((comparesFields_of_mask_F0FF hm).mp h).1
  · exact ((comparesFields_of_mask_F00F hm).mp h).1
  · exact (comparesFields_of_mask_F000 hm).mp h
  · exact absurd hm (hmasks r hr)

/-- A hole has no row of its own: it has the family of the row but not its low field. -/
theorem not_comparesFields_of_isHole {w : Word} (h : isHole w = true) {r : OpcodeRow} (hr : r ∈ opcodeTable.dropLast) :
    ¬ r.comparesFields (famOf w) (nnnOf w) (nnOf w) (nOf w) = true := by
  intro hrow
  obtain ⟨h8, hE, hF⟩ := opcodeTable_listed r hr
  have hfam : famOf w = famOf r.pat := famOf_of_comparesFields hr hrow
  obtain ⟨hf, hlow⟩ | ⟨hf, hlow⟩ | ⟨hf, hlow⟩ := isHole_iff_fields.mp h
  · obtain ⟨hmask, hlisted⟩ := h8 (hfam ▸ hf)
    exact hlow (((comparesFields_of_mask_F00F hmask).mp hrow).2 ▸ hlisted)
  · obtain ⟨hmask, hlisted⟩ := hE (hfam ▸ hf)
    exact hlow (((comparesFields_of_mask_F0FF hmask).mp hrow).2 ▸ hlisted)
  · obtain ⟨hmask, hlisted⟩ := hF (hfam ▸ hf)
    exact hlow (((comparesFields_of_mask_F0FF hmask).mp hrow).2 ▸ hlisted)

/-- Only the catch-all row is left for a hole. -/
theorem rowOfFields_undef {w : Word} (h : isHole w = true) :
    (rowOfFields (famOf w) (nnnOf w) (nnOf w) (nOf w)).map (fun r => r.name) = some "UNDEF" := by
  have hrows : opcodeTable = opcodeTable.dropLast ++ [⟨"UNDEF", 0x0000, 0x0000⟩] := rfl
  rw [rowOfFields, hrows, List.find?_append, List.find?_eq_none.mpr fun _ => not_comparesFields_of_isHole h]
  rfl

/-- Settles O3, by the instruction the word stands for: the fields its constructor fixes pick its row. -/
theorem dispatchAgreesWithOpcodeTable : Obligations.DispatchAgreesWithOpcodeTable := by
  intro w
  obtain ⟨hwf, hword⟩ := decodeWord_standsFor w
  generalize decodeWord w = i at *
  subst hword
  rw [tableRowOf_eq]
  cases i
  case cls => rfl
  case ret => rfl
  case sys nnn =>
    obtain ⟨hcls, hret⟩ := sysOperandOk_iff.mp hwf
    rw [encode, famOf_nibbleAddr, nnnOf_nibbleAddr]
    exact rowOfFields_sys hcls hret _ _
  case undef w => exact rowOfFields_undef hwf
  all_goals
    simp only [encode, famOf_nibbleAddr, famOf_nibbles, famOf_nibblesByte, nnOf_nibblesByte, nOf_nibbles]
    rfl
end Sys2Proof
end

section
/-! PROOF. The address translator and the memory (20_memory.md R31, R32). -/

namespace Sys2Proof.Machine

/-- A write at an address and at its masked form is one write. -/
theorem memWrite_mask12 (s : State) (a : Nat) (b : Byte) : memWrite s (mask12 a) b = memWrite s a b := by
  simp only [memWrite, mask12_mask12]

/-- Settles O8: the mask is the bitwise and, reads and writes mask once, and a read meets the write at its own masked address
alone. -/
theorem memoryMasksAndReadsBackWrites : Obligations.MemoryMasksAndReadsBackWrites := by
  intro s a a' b
  rw [← mask12_eq_and]
  exact ⟨rfl, (memRead_mask12 s a).symm, (memWrite_mask12 s a b).symm, memRead_memWrite_other, memRead_memWrite_same⟩

end Sys2Proof.Machine
end

section
/-! PROOF. What each instruction's meaning answers: one equation an instruction, and one for each branch where it has
branches (spec 40 to 44). The equations of the instructions settled above stand there, and DRW's with its drawing. -/

namespace Sys2Proof.Machine

variable (s : State)

/-! Control flow (40_control_flow.md R67, R69 to R74) -/

/-- CALL with room: the return address to the slot at `sp`, one entry more, and `pc` to NNN. -/
theorem exec_call_of_room {s : State} (h : s.sp.val < 16) (nnn : Addr) :
    exec (.call nnn) s =
      .next ((s.setStack (s.stack.set s.sp.val s.pc h) ⟨s.sp.val + 1, by omega⟩).setPc (immAddr nnn)) := by
  change orRaise s ((push s.pc s).map _) = _
  rw [push_ok h]
  rfl

/-- CALL on a full stack raises StackOverflow. -/
theorem exec_call_of_full {s : State} (h : s.sp = 16) (nnn : Addr) : exec (.call nnn) s = .next (s.setFault 1) := by
  change orRaise s ((push s.pc s).map _) = _
  rw [push_full h]
  rfl

/-- RET with an entry: the newest one to `pc`, and one entry less. -/
theorem exec_ret_of_entry {s : State} (h : s.sp.val ≠ 0) :
    exec .ret s = .next ((s.setStack s.stack ⟨s.sp.val - 1, by omega⟩).setPc (s.stack[s.sp.val - 1]'(by omega))) := by
  change orRaise s ((pop s).map _) = _
  rw [pop_ok h]
  rfl

/-- RET on an empty stack raises StackUnderflow. -/
theorem exec_ret_of_empty {s : State} (h : s.sp = 0) : exec .ret s = .next (s.setFault 2) := by
  change orRaise s ((pop s).map _) = _
  rw [pop_empty h]
  rfl

/-- Empty, or with an entry. -/
theorem sp_empty_or_entry : s.sp = 0 ∨ s.sp.val ≠ 0 := by
  rcases Nat.eq_zero_or_pos s.sp.val with h | h
  · exact .inl (Fin.ext h)
  · exact .inr h.ne'

@[simp] theorem exec_seImm (x : Nibble) (nn : Byte) : exec (.seImm x nn) s = .next (skipIf (s.getV x == nn) s) := rfl

@[simp] theorem exec_sneImm (x : Nibble) (nn : Byte) : exec (.sneImm x nn) s = .next (skipIf (s.getV x != nn) s) := rfl

@[simp] theorem exec_seReg (x y n : Nibble) : exec (.seReg x y n) s = .next (skipIf (s.getV x == s.getV y) s) := rfl

@[simp] theorem exec_sneReg (x y n : Nibble) : exec (.sneReg x y n) s = .next (skipIf (s.getV x != s.getV y) s) := rfl

@[simp] theorem exec_jpV0 (nnn : Addr) : exec (.jpV0 nnn) s = .next (s.setPc (offsetTarget s nnn)) := rfl

/-! Register, ALU and random instructions (41_alu.md R84 to R92) -/

@[simp] theorem exec_orReg (x y : Nibble) :
    exec (.orReg x y) s = .next (writeWithFlag s x (s.getV x ||| s.getV y) 0) := rfl

@[simp] theorem exec_andReg (x y : Nibble) :
    exec (.andReg x y) s = .next (writeWithFlag s x (s.getV x &&& s.getV y) 0) := rfl

@[simp] theorem exec_xorReg (x y : Nibble) :
    exec (.xorReg x y) s = .next (writeWithFlag s x (s.getV x ^^^ s.getV y) 0) := rfl

@[simp] theorem exec_addReg (x y : Nibble) : exec (.addReg x y) s =
    .next (writeWithFlag s x (s.getV x + s.getV y) (carryFlag (s.getV x) (s.getV y))) := rfl

@[simp] theorem exec_subReg (x y : Nibble) : exec (.subReg x y) s =
    .next (writeWithFlag s x (s.getV x - s.getV y) (noBorrowFlag (s.getV x) (s.getV y))) := rfl

@[simp] theorem exec_shrReg (x y : Nibble) : exec (.shrReg x y) s =
    .next (writeWithFlag s x (s.getV y >>> 1) (lowBitFlag (s.getV y))) := rfl

@[simp] theorem exec_subnReg (x y : Nibble) : exec (.subnReg x y) s =
    .next (writeWithFlag s x (s.getV y - s.getV x) (noBorrowFlag (s.getV y) (s.getV x))) := rfl

@[simp] theorem exec_shlReg (x y : Nibble) : exec (.shlReg x y) s =
    .next (writeWithFlag s x (s.getV y <<< 1) (highBitFlag (s.getV y))) := rfl

@[simp] theorem exec_rnd (x : Nibble) (nn : Byte) :
    exec (.rnd x nn) s = .next ((consumeRandom s).setV x (randomByte s &&& nn)) := rfl

/-! Index, memory and keypad (42_index_memory.md R102, R104, R105; 44_keypad_timers.md R120,
R121) -/

@[simp] theorem exec_ldF (x : Nibble) : exec (.ldF x) s = .next (s.setI (glyphAddr s x)) := rfl

@[simp] theorem exec_ldMemVx (x : Nibble) :
    exec (.ldMemVx x) s = .next (bumpI (dumpRegs (x.toNat + 1) s) (x.toNat + 1)) := rfl

@[simp] theorem exec_ldVxMem (x : Nibble) :
    exec (.ldVxMem x) s = .next (bumpI (loadRegs (x.toNat + 1) s) (x.toNat + 1)) := rfl

@[simp] theorem exec_skp (x : Nibble) : exec (.skp x) s = .next (skipIf (keyDown s (keyOperand s x)) s) := rfl

@[simp] theorem exec_sknp (x : Nibble) : exec (.sknp x) s = .next (skipIf (!keyDown s (keyOperand s x)) s) := rfl

end Sys2Proof.Machine
end

section
/-! PROOF. The Step (30_encoding.md R45, R46). -/

namespace Sys2Proof.Machine

/-- A Step that nothing suspends runs the fetched word's instruction. -/
theorem step_of_running {s : State} (hfault : s.fault = 0) (hkw : s.kw = .idle) :
    step s = exec (decodeWord (fetchWord s)) (advancePc s) := by
  rw [step, if_neg (by simp [halted, hfault]), waitCheck_none.mpr hkw]

/-- A Step after a fault changes nothing (60_exceptions.md R134). -/
theorem step_of_fault {s : State} (hfault : s.fault ≠ 0) : step s = .next s :=
  if_pos (bne_iff_ne.mpr hfault)

/-- Settles O10: the fetched word is the two bytes the byte decoder reads. -/
theorem stepRunsTheDecodedInstruction : Obligations.StepRunsTheDecodedInstruction := by
  intro s i hfault hkw hdec
  have hi : decodeWord (fetchWord s) = i := congrArg Prod.fst (Except.ok.inj hdec)
  rw [step_of_running hfault hkw, hi, advancePc]

/-- A word placed where the machine fetches is the word fetched: its two bytes stand in two locations. -/
theorem fetchWord_withFetchWord {s : State} (hwf : Memory.wf s.mem = true) (nbits w : Nat) :
    fetchWord (s.withFetchWord nbits w) = tableWord nbits w := by
  have hne : mask12 s.pc.toNat ≠ mask12 (s.pc.toNat + 1) := by
    simp only [mask12, Config.memSize]
    omega
  have hhigh : memRead (s.withFetchWord nbits w) s.pc.toNat = highByte (tableWord nbits w) := by
    rw [State.withFetchWord, memRead_memWrite_other hne]
    exact memRead_memWrite_same hwf rfl
  have hlow : memRead (s.withFetchWord nbits w) (s.pc.toNat + 1) = lowByte (tableWord nbits w) :=
    memRead_memWrite_same (memWrite_wf hwf) rfl
  calc fetchWord (s.withFetchWord nbits w)
    _ = memRead (s.withFetchWord nbits w) s.pc.toNat ++ memRead (s.withFetchWord nbits w) (s.pc.toNat + 1) := rfl
    _ = highByte (tableWord nbits w) ++ lowByte (tableWord nbits w) := by rw [hhigh, hlow]
    _ = tableWord nbits w := highByte_append_lowByte _

/-- Settles O11: placing a word clears the fault and the wait, so the next Step fetches it. -/
theorem placedWordRunsNext : Obligations.PlacedWordRunsNext := by
  intro s nbits w hwf
  rw [step_of_running rfl rfl, fetchWord_withFetchWord hwf]
  rfl

end Sys2Proof.Machine
end

section
/-! PROOF. What each instruction leaves unchanged (spec 40 to 44). One lemma for each update of Machine/Ops.lean says that an
effect stays within an instruction's frame when the instruction may make the update; the instructions' frames are put
together from these. -/

namespace Sys2Proof.Machine

/-- The instructions that write `pc` beyond the fetch advance stand in two of the families. -/
def writesPc (i : Instr) : Bool := familyOf i == .control || familyOf i == .keypad

/-- An instruction's frame, with what the frame statements leave out: `pc`, and the memory as a list. -/
structure Effect (i : Instr) (s t : State) : Prop extends Frame i s t where
  /-- `pc`, for the instructions of the other families. -/
  counter : writesPc i = false → t.pc = s.pc
  /-- The whole list of cells, where nothing is stored. -/
  cells : storeCount i = 0 → t.mem = s.mem
  /-- The canonical form (log 6). -/
  canonical : Memory.wf s.mem = true → Memory.wf t.mem = true

namespace Effect

variable {i : Instr} {s t : State}

theorem refl (i : Instr) (s : State) : Effect i s s where
  registers _ _ := rfl
  index _ := rfl
  stack _ := ⟨rfl, rfl⟩
  slots _ _ := rfl
  fault _ := rfl
  delay _ := rfl
  sound _ := rfl
  pixels _ := rfl
  keys := rfl
  latch _ := rfl
  memory _ _ := rfl
  random _ := ⟨rfl, rfl⟩
  counter _ := rfl
  cells _ := rfl
  canonical h := h

/-- A write of a register the instruction may write. -/
theorem setV (h : Effect i s t) {x : Nibble} (hx : writesReg i x = true) (b : Byte) : Effect i s (t.setV x b) :=
  { h with
    registers := fun r hr => by
      have hne : r ≠ x := fun e => by simp [← e, hr] at hx
      rw [State.setV_getV_of_ne _ _ hne]
      exact h.registers r hr }

theorem setI (h : Effect i s t) (hi : writesI i = true) (a : Word) : Effect i s (t.setI a) :=
  { h with index := fun hno => by simp [hi] at hno }

theorem setPc (h : Effect i s t) (hi : writesPc i = true) (a : Word) : Effect i s (t.setPc a) :=
  { h with counter := fun hno => by simp [hi] at hno }

theorem setDT (h : Effect i s t) (hi : writesDT i = true) (b : Byte) : Effect i s (t.setDT b) :=
  { h with delay := fun hno => by simp [hi] at hno }

theorem setST (h : Effect i s t) (hi : writesST i = true) (b : Byte) : Effect i s (t.setST b) :=
  { h with sound := fun hno => by simp [hi] at hno }

theorem setFB (h : Effect i s t) (hi : writesFB i = true) (fb : Vector (BitVec 64) 32) : Effect i s (t.setFB fb) :=
  { h with pixels := fun hno => by simp [hi] at hno }

theorem setKW (h : Effect i s t) (hi : writesKW i = true) (k : KeyWait) : Effect i s (t.setKW k) :=
  { h with latch := fun hno => by simp [hi] at hno }

theorem setRandom (h : Effect i s t) (hi : usesRandom i = true) (o : Option Byte) (n : Nat) :
    Effect i s (t.setRandom o n) :=
  { h with random := fun hno => by simp [hi] at hno }

theorem setFault (h : Effect i s t) (hi : usesStack i = true) (f : BitVec 2) : Effect i s (t.setFault f) :=
  { h with fault := fun hno => by simp [hi] at hno }

/-- A new stack whose slots differ from the old ones at most at the old pointer. -/
theorem setStack (h : Effect i s t) (hi : usesStack i = true) {k : Vector Word 16}
    (hk : ∀ j : Fin 16, j.val ≠ s.sp.val → k[j] = s.stack[j]) (n : Fin 17) : Effect i s (t.setStack k n) :=
  { h with
    stack := fun hno => by simp [hi] at hno
    slots := hk }

/-- A store at one of the instruction's addresses. -/
theorem memWrite (h : Effect i s t) {k : Nat} (hk : k < storeCount i) (b : Byte) :
    Effect i s (memWrite t (indexAddr s k) b) :=
  { h with
    memory := fun a ha => by
      rw [memRead_memWrite_other (ha k hk)]
      exact h.memory a ha
    cells := fun hno => by omega
    canonical := fun hwf => memWrite_wf (h.canonical hwf) }

/-- A skip, of an instruction that may write `pc`. -/
theorem skipIf (hi : writesPc i = true) (c : Bool) : Effect i s (skipIf c s) := by
  rw [skipIf_eq]
  exact (refl i s).setPc hi _

/-- A result and a flag, of an instruction that has both. -/
theorem writeWithFlag {x : Nibble} (hx : writesReg i x = true) (hvf : writesReg i vf = true) (a f : Byte) :
    Effect i s (writeWithFlag s x a f) :=
  ((refl i s).setV hx a).setV hvf f

/-- The registers dumped so far. -/
theorem dumpRegs {k : Nat} (hk : k ≤ storeCount i) : Effect i s (dumpRegs k s) := by
  induction k with
  | zero => exact refl i s
  | succ k ih => exact (ih (by omega)).memWrite hk _

/-- The registers loaded so far. -/
theorem loadRegs {k : Nat} (hk : ∀ j < k, writesReg i (BitVec.ofNat 4 j) = true) : Effect i s (loadRegs k s) := by
  induction k with
  | zero => exact refl i s
  | succ k ih => exact (ih fun j hj => hk j (by omega)).setV (hk k (by omega)) _

/-- Drawing, of an instruction that draws. -/
theorem ofOnlyDraws (h : OnlyDraws s t) (hvf : writesReg i vf = true) (hfb : writesFB i = true) : Effect i s t := by
  obtain ⟨heq, hregs⟩ := h
  have hothers : Effect i s { s with fb := t.fb } := (refl i s).setFB hfb _
  rw [heq]
  exact { hothers with
    registers := fun r hr => hregs r fun e => by simp [← e, hr] at hvf }

end Effect

/-- The destination of a one-destination instruction is written. -/
theorem writesReg_of_destReg {i : Instr} {r : Nibble} (h : destReg i r = true) : writesReg i r = true := by
  rw [writesReg, h, Bool.true_or]

/-- A flag-defining instruction writes `VF`. -/
theorem writesReg_vf_of_definesFlag {i : Instr} (h : definesFlag i = true) : writesReg i vf = true := by
  simp [writesReg, h]

/-- Each instruction's outcome, within its effect: every update it makes is one it may make. -/
theorem exec_next_effect (i : Instr) (s : State) : ∃ t, exec i s = .next t ∧ Effect i s t := by
  have hstart := Effect.refl i s
  cases i
  case cls => exact ⟨_, rfl, hstart.setFB rfl _⟩
  case ret =>
    obtain hempty | hentry := sp_empty_or_entry s
    · exact ⟨_, exec_ret_of_empty hempty, hstart.setFault rfl _⟩
    · exact ⟨_, exec_ret_of_entry hentry, (hstart.setStack rfl (fun _ _ => rfl) _).setPc rfl _⟩
  case sys => exact ⟨_, rfl, hstart⟩
  case jp => exact ⟨_, rfl, hstart.setPc rfl _⟩
  case call nnn =>
    obtain hroom | hfull := sp_cases s
    · have hslots : ∀ j : Fin 16, j.val ≠ s.sp.val → (s.stack.set s.sp.val s.pc hroom)[j] = s.stack[j] := fun j hj =>
        Vector.getElem_set_ne _ _ hj.symm
      exact ⟨_, exec_call_of_room hroom nnn, (hstart.setStack rfl hslots _).setPc rfl _⟩
    · exact ⟨_, exec_call_of_full hfull nnn, hstart.setFault rfl _⟩
  case seImm | sneImm | seReg | sneReg | skp | sknp => exact ⟨_, rfl, .skipIf rfl _⟩
  case ldImm | addImm | ldReg | ldVxDT => exact ⟨_, rfl, hstart.setV (writesReg_of_destReg (by simp [destReg])) _⟩
  case orReg | andReg | xorReg | addReg | subReg | shrReg | subnReg | shlReg =>
    exact ⟨_, rfl, .writeWithFlag (writesReg_of_destReg (by simp [destReg])) (writesReg_vf_of_definesFlag rfl) _ _⟩
  case ldI | addI | ldF => exact ⟨_, rfl, hstart.setI rfl _⟩
  case jpV0 => exact ⟨_, rfl, hstart.setPc rfl _⟩
  case rnd => exact ⟨_, rfl, (hstart.setRandom rfl _ _).setV (writesReg_of_destReg (by simp [destReg])) _⟩
  case drw =>
    exact ⟨_, rfl, .ofOnlyDraws ((OnlyDraws.clear s).trans (drawRows_frame ..)) (writesReg_vf_of_definesFlag rfl) rfl⟩
  case ldVxK x =>
    cases hscan : firstKey s with
    | none => exact ⟨_, exec_ldVxK_of_no_key hscan x, hstart.setPc rfl _⟩
    | some k =>
      exact ⟨_, exec_ldVxK_of_key hscan x, (hstart.setV (writesReg_of_destReg (by simp [destReg])) _).setKW rfl _⟩
  case ldDTVx => exact ⟨_, rfl, hstart.setDT rfl _⟩
  case ldSTVx => exact ⟨_, rfl, hstart.setST rfl _⟩
  case ldB x =>
    have hthree : storeCount (.ldB x) = 3 := rfl
    exact ⟨_, rfl, ((hstart.memWrite (by omega) _).memWrite (by omega) _).memWrite (by omega) _⟩
  case ldMemVx x => exact ⟨_, rfl, (Effect.dumpRegs le_rfl).setI rfl _⟩
  case ldVxMem x =>
    have hrange : ∀ j < x.toNat + 1, writesReg (.ldVxMem x) (BitVec.ofNat 4 j) = true := fun j hj => by
      have hj' : j % 2 ^ 4 ≤ x.toNat := (Nat.mod_le _ _).trans (Nat.le_of_lt_succ hj)
      exact writesReg_of_destReg (decide_eq_true (by rwa [BitVec.toNat_ofNat]))
    exact ⟨_, rfl, (Effect.loadRegs hrange).setI rfl _⟩
  case undef => exact ⟨_, rfl, hstart⟩

/-- Every instruction stays within its effect. -/
theorem exec_effect {i : Instr} {s t : State} (h : exec i s = .next t) : Effect i s t := by
  obtain ⟨u, hu, heffect⟩ := exec_next_effect i s
  cases hu.symm.trans h
  exact heffect

/-- Settles O22. -/
theorem controlFlowFrame : Obligations.ControlFlowFrame := fun _ _ _ _ h => (exec_effect h).toFrame

/-- Settles O23: the family does not write `pc`. -/
theorem aluFrame : Obligations.AluFrame := fun _ _ _ hfam h =>
  ⟨(exec_effect h).toFrame, (exec_effect h).counter (by rw [writesPc, hfam]; rfl)⟩

/-- Settles O24: the family does not write `pc`. -/
theorem indexMemoryFrame : Obligations.IndexMemoryFrame := fun _ _ _ hfam h =>
  ⟨(exec_effect h).toFrame, (exec_effect h).counter (by rw [writesPc, hfam]; rfl)⟩

/-- Settles O25: the family does not write `pc`. -/
theorem displayFrame : Obligations.DisplayFrame := fun _ _ _ hfam h =>
  ⟨(exec_effect h).toFrame, (exec_effect h).counter (by rw [writesPc, hfam]; rfl)⟩

/-- Settles O26. -/
theorem keypadTimerFrame : Obligations.KeypadTimerFrame := fun _ _ _ _ h => (exec_effect h).toFrame

end Sys2Proof.Machine
end

section
/-! PROOF. The end of a run (70_reset_and_hazards.md R161): the core never stops by itself. -/

namespace Sys2Proof.Machine

/-- Every instruction answers a next state. -/
theorem exec_next (i : Instr) (s : State) : ∃ t, exec i s = .next t :=
  (exec_next_effect i s).imp fun _ h => h.1

/-- Every Step answers a next state. -/
theorem step_next (s : State) : ∃ t, step s = .next t := by
  obtain ⟨-, h⟩ | ⟨-, _, _, -, h⟩ | ⟨-, -, h⟩ := step_cases (s := s) rfl
  · exact ⟨_, h⟩
  · exact ⟨_, h⟩
  · rw [h]
    exact exec_next _ _

/-- The driver's Step is the Step with its byte presented, and the byte gone after it (00_scope.md R2). -/
theorem drive_step {s t : State} {b : Byte} (h : step (s.setRandom (some b) s.draws) = .next t) :
    drive (.step b) s = .next (t.setRandom none t.draws) := by
  change dropRandom (step _) = _
  rw [h]
  rfl

/-- Every external operation answers a next state. -/
theorem drive_next (op : DriverOp) (s : State) : ∃ t, drive op s = .next t := by
  cases op
  case step b =>
    obtain ⟨t, h⟩ := step_next (s.setRandom (some b) s.draws)
    exact ⟨_, drive_step h⟩
  all_goals exact ⟨_, rfl⟩

/-- Settles O14. -/
theorem nothingStopsTheMachine : Obligations.NothingStopsTheMachine := ⟨step_next, exec_next, drive_next⟩

end Sys2Proof.Machine
end

section
/-! PROOF. The rules of the whole machine: the faults, where `pc` goes, and which Steps write what. -/

namespace Sys2Proof.Machine

/-- A next state is one. -/
theorem eq_of_next {o : Host.Outcome State Fault Refusal} {t u : State} (h : o = .next t) (h' : o = .next u) : t = u :=
  Host.Outcome.next.inj (h.symm.trans h')

/-- Settles O18: an instruction other than CALL and RET keeps the fault register by its effect; each of the two raises in one
of its branches. -/
theorem onlyCallAndRetRaise : Obligations.OnlyCallAndRetRaise := by
  intro i s t h
  by_cases hstack : usesStack i = false
  · exact .inl ((exec_effect h).fault hstack)
  cases i with
  | call nnn =>
    obtain hroom | hfull := sp_cases s
    · exact .inl (by rw [eq_of_next h (exec_call_of_room hroom nnn)]; rfl)
    · exact .inr (.inl ⟨⟨nnn, rfl⟩, hfull, eq_of_next h (exec_call_of_full hfull nnn)⟩)
  | ret =>
    obtain hempty | hentry := sp_empty_or_entry s
    · exact .inr (.inr ⟨rfl, hempty, eq_of_next h (exec_ret_of_empty hempty)⟩)
    · exact .inl (by rw [eq_of_next h (exec_ret_of_entry hentry)]; rfl)
  | _ => exact absurd rfl hstack

/-! Where `pc` goes (40_control_flow.md, the summary table) -/

/-- The sum NNN + V0 fits the 16 bits of `pc` (40_control_flow.md R74). -/
theorem toNat_offsetTarget (s : State) (nnn : Addr) : (offsetTarget s nnn).toNat = nnn.toNat + (s.getV 0).toNat := by
  have hnnn : nnn.toNat < 4096 := nnn.isLt
  have hv : (s.getV 0).toNat < 256 := (s.getV 0).isLt
  rw [offsetTarget, BitVec.toNat_add, toNat_immAddr, BitVec.toNat_setWidth_of_le (by decide)]
  exact Nat.mod_eq_of_lt (by omega)

/-- The key SKP and SKNP test, by value (44_keypad_timers.md R126). -/
theorem toNat_keyOperand (s : State) (x : Nibble) : (keyOperand s x).toNat = (s.getV x).toNat % 16 :=
  BitVec.toNat_setWidth ..

/-- SKP and SKNP test the bit of the latch at `V[x]` modulo 16. -/
theorem keyDown_keyOperand (s : State) (x : Nibble) :
    keyDown s (keyOperand s x) = s.keys.getLsbD ((s.getV x).toNat % 16) := by
  rw [keyDown, toNat_keyOperand]

/-- The address after the fetch advance, by value (30_encoding.md R46). -/
theorem toNat_pc_add_two (pc0 : Word) : (pc0 + 2).toNat = (pc0.toNat + 2) % 65536 := BitVec.toNat_add ..

/-- An instruction that is no skip leaves the advanced `pc`. -/
theorem pcAllowed_advanced {p : Prop} (hp : ¬ p) (pc0 : Word) :
    (p → (pc0 + 2).toNat = (pc0.toNat + 4) % 65536) ∧ (¬ p → (pc0 + 2).toNat = (pc0.toNat + 2) % 65536) :=
  ⟨fun h => absurd h hp, fun _ => toNat_pc_add_two pc0⟩

/-- Where a skip leads, taken or not, from the advanced `pc` (40_control_flow.md R75). -/
theorem pcAllowed_skipIf {s : State} {pc0 : Word} {c : Bool} {p : Prop} (hp : c = true ↔ p) :
    (p → (skipIf c (s.setPc (pc0 + 2))).pc.toNat = (pc0.toNat + 4) % 65536) ∧
    (¬ p → (skipIf c (s.setPc (pc0 + 2))).pc.toNat = (pc0.toNat + 2) % 65536) := by
  rw [skipIf_eq, ← hp]
  cases c
  · exact ⟨fun h => absurd h Bool.false_ne_true, fun _ => toNat_pc_add_two pc0⟩
  · refine ⟨fun _ => ?_, fun h => absurd rfl h⟩
    change (pc0 + 2 + 2).toNat = _
    bv_omega

/-- A key found is down, so the latch is not empty. -/
theorem keys_ne_zero_of_firstKey {s : State} {k : Nibble} (h : firstKey s = some k) : s.keys ≠ 0 := fun hzero => by
  obtain ⟨hdown, -⟩ := firstKey_some h
  rw [keyDown_of_keys_zero hzero] at hdown
  exact Bool.false_ne_true hdown

/-- No key found, the latch is empty. -/
theorem keys_eq_zero_of_firstKey {s : State} (h : firstKey s = none) : s.keys = 0 := by
  refine BitVec.eq_of_getLsbD_eq fun j hj => ?_
  have hup : keyDown s (BitVec.ofNat 4 j) = false := firstKey_none h _
  rwa [keyDown, BitVec.toNat_ofNat, Nat.mod_eq_of_lt hj, ← BitVec.getLsbD_zero (w := 16)] at hup

/-- Settles O19, by the instruction: the jumps by their targets, the skips by their conditions, CALL and RET by their
branches, LD Vx,K by what the scan finds; every other instruction leaves the advanced `pc`. -/
theorem programCounterAfterEachInstruction : Obligations.ProgramCounterAfterEachInstruction := by
  intro i s t pc0 h
  cases i
  case jp nnn =>
    rw [eq_of_next h (exec_jp _ _)]
    exact toNat_immAddr nnn
  case jpV0 nnn =>
    rw [eq_of_next h (exec_jpV0 _ _)]
    exact toNat_offsetTarget s nnn
  case call nnn =>
    obtain hroom | hfull := sp_cases s
    · rw [eq_of_next h (exec_call_of_room (s := s.setPc (pc0 + 2)) hroom nnn)]
      exact ⟨fun _ => toNat_immAddr nnn, fun hfull => absurd hroom (by omega)⟩
    · rw [eq_of_next h (exec_call_of_full (s := s.setPc (pc0 + 2)) hfull nnn)]
      exact ⟨fun hroom => absurd hroom (by simp [hfull]), fun _ => toNat_pc_add_two pc0⟩
  case ret =>
    obtain hempty | hentry := sp_empty_or_entry s
    · rw [eq_of_next h (exec_ret_of_empty (s := s.setPc (pc0 + 2)) hempty)]
      exact ⟨fun j hj => absurd hj (by simp [hempty]), fun _ => toNat_pc_add_two pc0⟩
    · rw [eq_of_next h (exec_ret_of_entry (s := s.setPc (pc0 + 2)) hentry)]
      refine ⟨fun j hj => ?_, fun hempty => absurd hempty hentry⟩
      have hnewest : s.sp.val - 1 = j.val := by omega
      simp [hnewest]
  case seImm x nn =>
    rw [eq_of_next h (exec_seImm _ _ _)]
    exact pcAllowed_skipIf beq_iff_eq
  case sneImm x nn =>
    rw [eq_of_next h (exec_sneImm _ _ _)]
    exact pcAllowed_skipIf bne_iff_ne
  case seReg x y n =>
    rw [eq_of_next h (exec_seReg _ _ _ _)]
    exact pcAllowed_skipIf beq_iff_eq
  case sneReg x y n =>
    rw [eq_of_next h (exec_sneReg _ _ _ _)]
    exact pcAllowed_skipIf bne_iff_ne
  case skp x =>
    rw [eq_of_next h (exec_skp _ _), keyDown_keyOperand]
    exact pcAllowed_skipIf Iff.rfl
  case sknp x =>
    rw [eq_of_next h (exec_sknp _ _), keyDown_keyOperand]
    exact pcAllowed_skipIf (Bool.not_eq_true' _).to_iff
  case ldVxK x =>
    cases hscan : firstKey (s.setPc (pc0 + 2)) with
    | none =>
      rw [eq_of_next h (exec_ldVxK_of_no_key hscan x)]
      refine ⟨fun _ => ?_, fun hkeys => absurd (keys_eq_zero_of_firstKey hscan) hkeys⟩
      change (pc0 + 2 - 2).toNat = _
      bv_omega
    | some k =>
      rw [eq_of_next h (exec_ldVxK_of_key hscan x)]
      exact ⟨fun hzero => absurd hzero (keys_ne_zero_of_firstKey hscan), fun _ => toNat_pc_add_two pc0⟩
  case sys | undef | ldVxDT | ldDTVx | ldSTVx =>
    cases h
    exact pcAllowed_advanced id pc0
  all_goals
    rw [(exec_effect h).counter rfl]
    exact pcAllowed_advanced id pc0

/-! Which Steps write what (10_state.md R14 to R20) -/

/-- A Step runs no instruction, and writes at most the latch out of a wait; or it runs one, within its effect on the state
with `pc` advanced. -/
theorem step_effect {s t : State} (h : step s = .next t) :
    (t.kw = s.kw ∨ s.kw ≠ .idle) ∧ t = s.setKW t.kw ∨
    s.fault = 0 ∧ s.kw = .idle ∧ Effect (decodeWord (fetchWord s)) (advancePc s) t := by
  obtain ⟨-, hsame⟩ | ⟨-, k, d, hkw, hwait⟩ | ⟨hfault, hkw, hrun⟩ := step_cases h
  · cases hsame
    exact .inl ⟨.inl rfl, rfl⟩
  · refine .inl ⟨.inr (by simp [hkw]), ?_⟩
    cases hwait
    split <;> rfl
  · exact .inr ⟨hfault, hkw, exec_effect hrun.symm⟩

/-- Settles O21: a Step that runs no instruction writes the latch at most, and only out of a wait; one that runs an
instruction writes what the instruction's effect allows. -/
theorem stepsWriteOnlyTheirOwnState : Obligations.StepsWriteOnlyTheirOwnState := by
  intro s t h
  obtain ⟨hkw, hsame⟩ | ⟨-, -, heffect⟩ := step_effect h
  · rw [hsame]
    refine ⟨rfl, absurd rfl, absurd rfl, absurd rfl, fun hne => .inl (hkw.resolve_left hne), fun hne => ?_, absurd rfl⟩
    obtain hne | hne | hne := hne <;> exact absurd rfl hne
  · refine ⟨heffect.keys, fun hne => ?fb, fun hne => ?dt, fun hne => ?st, fun hne => .inr ?kw, fun hne => ?stack,
      fun hne hzero => hne (heffect.cells hzero)⟩
    case fb => exact Bool.of_not_eq_false (mt heffect.pixels hne)
    case dt => exact Bool.of_not_eq_false (mt heffect.delay hne)
    case st => exact Bool.of_not_eq_false (mt heffect.sound hne)
    case kw => exact Bool.of_not_eq_false (mt heffect.latch hne)
    case stack =>
      refine Bool.of_not_eq_false fun hno => ?_
      obtain ⟨hsp, hstack⟩ := heffect.stack hno
      obtain hne | hne | hne := hne
      · exact hne hsp
      · exact hne hstack
      · exact hne (heffect.fault hno)

end Sys2Proof.Machine
end

section
/-! PROOF. The invariant (10_state.md, Invariants): kept by every Step, every operation and every schedule. -/

namespace Sys2Proof.Machine

/-- An instruction run from a state that is idle and without a fault keeps the invariant: it raises at most on the stack the
code says, and it waits at most for the key it has put in the register. -/
theorem exec_keeps_inv {i : Instr} {s t : State} (hinv : StateInv s) (hfault : s.fault = 0) (hkw : s.kw = .idle)
    (h : exec i s = .next t) : StateInv t := by
  have heffect := exec_effect h
  have hmem : Memory.wf t.mem = true := heffect.canonical hinv.memory
  obtain hkeep | ⟨⟨nnn, rfl⟩, hsp, rfl⟩ | ⟨rfl, hsp, rfl⟩ := onlyCallAndRetRaise i s t h
  · have hzero : t.fault = 0 := hkeep.trans hfault
    have hlatched : ∀ k d, t.kw = .waitingForRelease k d → t.getV d = k.setWidth 8 := by
      intro k d hwait
      by_cases hwrites : writesKW i = false
      · rw [heffect.latch hwrites, hkw] at hwait
        exact absurd hwait (by simp)
      cases i
      case ldVxK x =>
        cases hscan : firstKey s with
        | none =>
          rw [eq_of_next h (exec_ldVxK_of_no_key hscan x)] at hwait
          exact absurd (hkw.symm.trans hwait) (by simp)
        | some l =>
          rw [eq_of_next h (exec_ldVxK_of_key hscan x)] at hwait ⊢
          cases hwait
          exact s.setV_getV_same d _
      all_goals exact absurd rfl hwrites
    exact { memory := hmem, code := by simp [hzero], overflow := by simp [hzero], underflow := by simp [hzero],
            waiting := fun _ => hzero, latched := hlatched }
  · exact { memory := hmem, code := (by decide : (1 : BitVec 2) ≠ 3), overflow := fun _ => hsp, underflow := by simp
            waiting := fun hne => absurd hkw hne, latched := fun k d hwait => absurd (hkw.symm.trans hwait) (by simp) }
  · exact { memory := hmem, code := (by decide : (2 : BitVec 2) ≠ 3), overflow := by simp, underflow := fun _ => hsp
            waiting := fun hne => absurd hkw hne, latched := fun k d hwait => absurd (hkw.symm.trans hwait) (by simp) }

/-- Two states that agree on what the invariant speaks of meet it together, when the second is idle or waits as the first. -/
theorem StateInv.congr {s t : State} (hinv : StateInv s) (hmem : Memory.wf t.mem = true) (hfault : t.fault = s.fault)
    (hsp : t.sp = s.sp) (hkw : t.kw = s.kw) (hv : t.v = s.v) : StateInv t where
  memory := hmem
  code := hfault ▸ hinv.code
  overflow := fun h => hsp ▸ hinv.overflow (hfault ▸ h)
  underflow := fun h => hsp ▸ hinv.underflow (hfault ▸ h)
  waiting := fun h => hfault ▸ hinv.waiting (hkw ▸ h)
  latched := fun k d h => by
    rw [← hinv.latched k d (hkw ▸ h)]
    simp only [State.getV, hv]

/-- The end of a wait keeps the invariant. -/
theorem StateInv.setKW_idle {s : State} (hinv : StateInv s) : StateInv (s.setKW .idle) where
  memory := hinv.memory
  code := hinv.code
  overflow := hinv.overflow
  underflow := hinv.underflow
  waiting := fun h => absurd rfl h
  latched := fun _ _ h => absurd h (by simp)

/-- Settles O15, by what a Step can do: nothing after a fault, the wait check, or one instruction. -/
theorem stepKeepsInvariant : Obligations.StepKeepsInvariant := by
  intro s t hinv h
  obtain ⟨-, hsame⟩ | ⟨-, k, d, -, hwait⟩ | ⟨hfault, hkw, hrun⟩ := step_cases h
  · cases hsame
    exact hinv
  · cases hwait
    split
    · exact hinv
    · exact hinv.setKW_idle
  · have hadvanced : StateInv (advancePc s) := hinv.congr hinv.memory rfl rfl rfl rfl
    exact exec_keeps_inv hadvanced hfault hkw hrun.symm

/-- Settles O16. -/
theorem resetMeetsInvariant : Obligations.ResetMeetsInvariant where
  memory := reset_mem_wf
  code := by decide
  overflow := by decide
  underflow := by decide
  waiting := fun h => absurd rfl h
  latched := fun _ _ h => absurd h (by simp [State.reset])

/-- A Load keeps the invariant: it writes memory alone, in its canonical form (70_reset_and_hazards.md R152). -/
theorem opLoad_keeps_inv {s : State} (hinv : StateInv s) (bytes : List Byte) : StateInv (opLoad bytes s) := by
  unfold opLoad
  split
  · exact hinv
  · have hwf := storeBytes_wf (bs := bytes) (a := Config.loadOffset) hinv.memory
    rw [storeBytes_frame]
    exact hinv.congr hwf rfl rfl rfl rfl

/-- Every external operation keeps the invariant. -/
theorem drive_keeps_inv {op : DriverOp} {s t : State} (hinv : StateInv s) (h : drive op s = .next t) : StateInv t := by
  cases op with
  | reset =>
    cases h
    exact resetMeetsInvariant.congr reset_mem_wf rfl rfl rfl rfl
  | load bytes =>
    cases h
    exact opLoad_keeps_inv hinv bytes
  | step b =>
    obtain ⟨u, hu⟩ := step_next (s.setRandom (some b) s.draws)
    cases eq_of_next h (drive_step hu)
    have hpresented : StateInv (s.setRandom (some b) s.draws) := hinv.congr hinv.memory rfl rfl rfl rfl
    have hu' : StateInv u := stepKeepsInvariant _ _ hpresented hu
    exact hu'.congr hu'.memory rfl rfl rfl rfl
  | tick | keyWrite _ | fbRead =>
    cases h
    exact hinv.congr hinv.memory rfl rfl rfl rfl

/-- A schedule keeps the invariant, operation by operation. -/
theorem driveAll_keeps_inv {ops : List DriverOp} {s t : State} (hinv : StateInv s) (h : driveAll ops s = .next t) :
    StateInv t := by
  induction ops generalizing s with
  | nil =>
    cases h
    exact hinv
  | cons op ops ih =>
    obtain ⟨u, hu⟩ := drive_next op s
    rw [driveAll, hu] at h
    exact ih (drive_keeps_inv hinv hu) h

/-- Settles O17. -/
theorem everyScheduleKeepsInvariant : Obligations.EveryScheduleKeepsInvariant :=
  ⟨fun _ _ _ => drive_keeps_inv, fun _ _ _ => driveAll_keeps_inv⟩

end Sys2Proof.Machine
end

section
/-! PROOF. The family of 40_control_flow.md: calls, returns, skips and the jump with an offset. -/

namespace Sys2Proof.Machine

/-- Settles O29: one write of `pc`, whose sum fits. -/
theorem jumpWithOffsetStoresTheSum : Obligations.JumpWithOffsetStoresTheSum := fun s nnn =>
  ⟨_, exec_jpV0 s nnn, toNat_offsetTarget s nnn, rfl⟩

/-- Settles O30, by whether there is room. Each case contradicts the other's clause. -/
theorem callPushesTheReturnAddress : Obligations.CallPushesTheReturnAddress := by
  intro s nnn
  obtain hroom | hfull := sp_cases s
  · refine ⟨_, exec_call_of_room hroom nnn, fun j hj => ⟨?slot, rfl, toNat_immAddr nnn, rfl⟩, fun hfull => ?_⟩
    case slot => simp [← hj]
    omega
  · refine ⟨_, exec_call_of_full hfull nnn, fun j hj => ?_, fun _ => rfl⟩
    have hj' : j.val = 16 := hj.symm.trans (congrArg Fin.val hfull)
    omega

/-- Settles O31, by whether there is an entry. Each case contradicts the other's clause. -/
theorem returnPopsTheNewestEntry : Obligations.ReturnPopsTheNewestEntry := by
  intro s
  obtain hempty | hentry := sp_empty_or_entry s
  · refine ⟨_, exec_ret_of_empty hempty, fun j hj => ?_, fun _ => rfl⟩
    have hzero : s.sp.val = 0 := congrArg Fin.val hempty
    omega
  · refine ⟨_, exec_ret_of_entry hentry, fun j hj => ?_, fun hempty => absurd hempty hentry⟩
    have hnewest : s.sp.val - 1 = j.val := by omega
    exact ⟨by simp [hnewest], hnewest, rfl, rfl⟩

/-- Settles O32: the entry popped is the one pushed, and a push writes no older slot. -/
theorem returnComesBackFromCall : Obligations.ReturnComesBackFromCall := by
  intro s nnn hroom
  refine ⟨_, _, exec_call_of_room hroom nnn, exec_ret_of_entry (Nat.succ_ne_zero _), ?pc, rfl, fun j hj => ?older⟩
  case pc => simp
  case older => exact Vector.getElem_set_ne hroom _ hj.ne'

/-- Settles O33: the four conditions by value. -/
theorem skipsOnEqualAndNotEqual : Obligations.SkipsOnEqualAndNotEqual := by
  intro s x y n nn
  simp only [exec_seImm, exec_sneImm, exec_seReg, exec_sneReg, skipIf_eq, beq_iff_eq, bne_iff_ne, BitVec.toNat_inj,
    ne_eq, ite_not, and_self]

end Sys2Proof.Machine
end

section
/-! PROOF. The family of 41_alu.md: the logical operations, the arithmetic with its flags, the shifts and the random byte. -/

namespace Sys2Proof.Machine

/-- Settles O35: a result and the flag 0, read back at every register. -/
theorem logicalOperationsClearFlag : Obligations.LogicalOperationsClearFlag := fun s x y =>
  ⟨_, _, _, exec_orReg s x y, exec_andReg s x y, exec_xorReg s x y, fun r =>
    ⟨writeWithFlag_getV s x _ 0 r, writeWithFlag_getV s x _ 0 r, writeWithFlag_getV s x _ 0 r⟩⟩

section WriteWithFlag

variable (s : State) (x : Nibble) (a f : Byte)

/-- The flag stands in `VF`, whatever the destination (41_alu.md R80). -/
theorem writeWithFlag_getV_vf : (writeWithFlag s x a f).getV vf = f := by
  rw [writeWithFlag_getV, if_pos rfl]

/-- The result stands in `V[x]` when that is not `VF`. -/
theorem writeWithFlag_getV_dest {x : Nibble} (hx : x ≠ vf) : (writeWithFlag s x a f).getV x = a := by
  rw [writeWithFlag_getV, if_neg hx, if_pos rfl]

/-- Every other register keeps its byte. -/
theorem writeWithFlag_getV_other {x r : Nibble} (hx : r ≠ x) (hvf : r ≠ vf) :
    (writeWithFlag s x a f).getV r = s.getV r := by
  rw [writeWithFlag_getV, if_neg hvf, if_neg hx]

end WriteWithFlag

/-- The carry by value, from the exact sum (41_alu.md R87). -/
theorem toNat_carryFlag (a b : Byte) : (carryFlag a b).toNat = (a.toNat + b.toNat) / 256 := by
  have ha : a.toNat < 256 := a.isLt
  have hb : b.toNat < 256 := b.isLt
  by_cases h : a.toNat + b.toNat > 255
  · simp [carryFlag, flagByte, h]
    omega
  · simp [carryFlag, flagByte, h]
    omega

/-- Settles O36. -/
theorem addSetsCarry : Obligations.AddSetsCarry := by
  intro s x y
  refine ⟨_, exec_addReg s x y, ?carry, fun hx => ?sum, fun r hx hvf => writeWithFlag_getV_other s _ _ hx hvf⟩
  case carry => rw [writeWithFlag_getV_vf, toNat_carryFlag]
  case sum => rw [writeWithFlag_getV_dest s _ _ hx, BitVec.toNat_add]

/-- A byte difference by value, over the integers (41_alu.md R88). -/
theorem toNat_sub_byte (a b : Byte) : ((a - b).toNat : Int) = ((a.toNat : Int) - b.toNat) % 256 := by
  have ha : a.toNat < 256 := a.isLt
  have hb : b.toNat < 256 := b.isLt
  rw [BitVec.toNat_sub]
  omega

/-- No borrow, in the order the statement has it (41_alu.md R88). -/
theorem noBorrowFlag_eq (a b : Byte) : noBorrowFlag a b = if b.toNat ≤ a.toNat then 1 else 0 := by
  simp [noBorrowFlag, flagByte]

/-- Settles O37. -/
theorem subtractionsSetNoBorrow : Obligations.SubtractionsSetNoBorrow := by
  intro s x y
  refine ⟨_, _, exec_subReg s x y, exec_subnReg s x y, ?sub, ?subn, fun hx => ⟨?diff, ?diffn⟩, fun r hx hvf =>
    ⟨writeWithFlag_getV_other s _ _ hx hvf, writeWithFlag_getV_other s _ _ hx hvf⟩⟩
  case sub => rw [writeWithFlag_getV_vf, noBorrowFlag_eq]
  case subn => rw [writeWithFlag_getV_vf, noBorrowFlag_eq]
  case diff => rw [writeWithFlag_getV_dest s _ _ hx, toNat_sub_byte]
  case diffn => rw [writeWithFlag_getV_dest s _ _ hx, toNat_sub_byte]

/-- The bit a right shift puts out, by value (41_alu.md R89). -/
theorem toNat_lowBitFlag (b : Byte) : (lowBitFlag b).toNat = b.toNat % 2 := by
  have hbit : b.getLsbD 0 = decide (b.toNat % 2 = 1) := Nat.testBit_zero _
  rw [lowBitFlag, hbit]
  obtain h | h := Nat.mod_two_eq_zero_or_one b.toNat <;> rw [h] <;> rfl

/-- The bit a left shift puts out, by value (41_alu.md R91). -/
theorem toNat_highBitFlag (b : Byte) : (highBitFlag b).toNat = b.toNat / 128 := by
  have hbit : b.getLsbD 7 = decide (b.toNat / 128 % 2 = 1) := Nat.testBit_eq_decide_div_mod_eq
  have hlt : b.toNat / 128 < 2 := by omega
  rw [highBitFlag, hbit, Nat.mod_eq_of_lt hlt]
  interval_cases b.toNat / 128 <;> rfl

/-- Settles O38. -/
theorem shiftsReadVy : Obligations.ShiftsReadVy := by
  intro s x y
  refine ⟨_, _, exec_shrReg s x y, exec_shlReg s x y, ?low, ?high, fun hx => ⟨?half, ?double⟩, fun r hx hvf =>
    ⟨writeWithFlag_getV_other s _ _ hx hvf, writeWithFlag_getV_other s _ _ hx hvf⟩⟩
  case low => rw [writeWithFlag_getV_vf, toNat_lowBitFlag]
  case high => rw [writeWithFlag_getV_vf, toNat_highBitFlag]
  case half => rw [writeWithFlag_getV_dest s _ _ hx, BitVec.toNat_ushiftRight, Nat.shiftRight_eq_div_pow, pow_one]
  case double => rw [writeWithFlag_getV_dest s _ _ hx, BitVec.toNat_shiftLeft, Nat.shiftLeft_eq, pow_one]

/-- A presented byte is the random byte (41_alu.md R92). -/
theorem randomByte_of_presented {s : State} {b : Byte} (h : s.rnd = some b) : randomByte s = b := by
  rw [randomByte, h, Option.getD_some]

/-- RND writes the masked byte to `V[x]` (41_alu.md R92). -/
theorem consumeRandom_setV_getV (s : State) (x r : Nibble) (b : Byte) :
    ((consumeRandom s).setV x b).getV r = if r = x then b else s.getV r := by
  rw [State.setV_getV]
  rfl

/-- Settles O39: the byte of the driver's Step is presented, so RND masks it, in a Step that only moves `pc` besides. -/
theorem randomIsMasked : Obligations.RandomIsMasked := by
  intro s x nn
  refine ⟨_, exec_rnd s x nn, ?masked, fun b hb => ?presented, fun r hr => ?others, fun b hfault hkw hfetch => ?driver⟩
  case masked => rw [consumeRandom_setV_getV, if_pos rfl]
  case presented => rw [consumeRandom_setV_getV, if_pos rfl, randomByte_of_presented hb]
  case others => rw [consumeRandom_setV_getV, if_neg hr]
  case driver =>
    have hdec : decodeWord (fetchWord (s.setRandom (some b) s.draws)) = .rnd x nn := hfetch
    have hbyte : randomByte (advancePc (s.setRandom (some b) s.draws)) = b := randomByte_of_presented rfl
    have hstep := step_of_running (s := s.setRandom (some b) s.draws) hfault hkw
    rw [hdec, exec_rnd, hbyte] at hstep
    refine ⟨_, drive_step hstep, ?_, fun r hr => ?_, rfl⟩
    · rw [State.setRandom_getV, consumeRandom_setV_getV, if_pos rfl]
    · rw [State.setRandom_getV, consumeRandom_setV_getV, if_neg hr]
      rfl

end Sys2Proof.Machine
end

section
/-! PROOF. The family of 42_index_memory.md: the glyph address and the register block moves. -/

namespace Sys2Proof.Machine

/-- The glyph address fits the 16 bits of `I` (42_index_memory.md R102). -/
theorem toNat_glyphAddr (s : State) (x : Nibble) :
    (glyphAddr s x).toNat = Config.glyphBase + 5 * (s.getV x).toNat := by
  have hv : (s.getV x).toNat < 256 := (s.getV x).isLt
  have hbase : Config.glyphBase = 80 := rfl
  rw [glyphAddr, BitVec.toNat_ofNat]
  exact Nat.mod_eq_of_lt (by omega)

/-- Settles O42: one write of `I`. -/
theorem glyphAddress : Obligations.GlyphAddress := fun s x => ⟨_, exec_ldF s x, toNat_glyphAddr s x, rfl⟩

/-- A dumped register is read back: the writes after its own miss it (42_index_memory.md R104). -/
theorem memRead_dumpRegs {k j : Nat} {s : State} (hwf : Memory.wf s.mem = true) (hj : j < k) (hk : k ≤ 16) :
    memRead (dumpRegs k s) (indexAddr s j) = s.getV (BitVec.ofNat 4 j) := by
  induction k with
  | zero => exact absurd hj (Nat.not_lt_zero j)
  | succ k ih =>
    rw [dumpRegs]
    obtain hlt | rfl := Nat.lt_succ_iff_lt_or_eq.mp hj
    · have hmem : Config.memSize = 4096 := rfl
      have hmiss : effAddr s j ≠ effAddr s k := effAddr_ne (by omega) (by omega) hlt.ne
      rw [memRead_memWrite_other hmiss, ih hlt (by omega)]
    · exact memRead_memWrite_same (dumpRegs_wf hwf) rfl

@[simp] theorem dumpRegs_v (k : Nat) (s : State) : (dumpRegs k s).v = s.v := by
  rw [dumpRegs_frame]
  rfl

@[simp] theorem dumpRegs_i (k : Nat) (s : State) : (dumpRegs k s).i = s.i := by
  rw [dumpRegs_frame]
  rfl

@[simp] theorem loadRegs_i (k : Nat) (s : State) : (loadRegs k s).i = s.i := by
  rw [loadRegs_frame]

@[simp] theorem loadRegs_mem (k : Nat) (s : State) : (loadRegs k s).mem = s.mem := by
  rw [loadRegs_frame]

/-- The index after a block of `x + 1` bytes (42_index_memory.md R104, R105). -/
theorem bumpI_toNat (s : State) (k : Nat) : (bumpI s k).i.toNat = (s.i.toNat + k) % 65536 := BitVec.toNat_ofNat ..

/-- Settles O44: the dumped registers are read back, the bytes outside the block are missed, and `I` moves past it. -/
theorem dumpStoresRegistersAndAdvances : Obligations.DumpStoresRegistersAndAdvances := by
  intro s x hwf
  have hx : x.toNat < 16 := x.isLt
  refine ⟨_, exec_ldMemVx s x, fun r hr => ?dumped, fun a ha => ?others, ?registers, ?index⟩
  case dumped =>
    have hread := memRead_dumpRegs hwf (Nat.lt_succ_of_le hr) (Nat.succ_le_of_lt hx)
    rwa [BitVec.ofNat_toNat, BitVec.setWidth_eq] at hread
  case others => exact dumpRegs_other fun j hj => ha j (Nat.le_of_lt_succ hj)
  case registers => exact dumpRegs_v _ s
  case index =>
    rw [bumpI_toNat, dumpRegs_i, Nat.add_assoc]

/-- Settles O45: the block is read by `loadRegs_getV`, and `I` moves past it. -/
theorem loadReadsRegistersAndAdvances : Obligations.LoadReadsRegistersAndAdvances := by
  intro s x
  have hx : x.toNat + 1 ≤ 16 := x.isLt
  refine ⟨_, exec_ldVxMem s x, fun r => ?loaded, ?memory, ?index⟩
  case loaded =>
    change (loadRegs _ s).getV r = _
    rw [loadRegs_getV hx]
    simp only [Nat.lt_succ_iff]
    rfl
  case memory => exact loadRegs_mem _ s
  case index =>
    rw [bumpI_toNat, loadRegs_i, Nat.add_assoc]

end Sys2Proof.Machine
end

section
/-! PROOF. The family of 44_keypad_timers.md: the skips on keys. -/

namespace Sys2Proof.Machine

/-- Settles O51: the key tested is the bit of the latch at `V[x]` modulo 16. -/
theorem skipsOnKey : Obligations.SkipsOnKey := by
  intro s x
  rw [exec_skp, exec_sknp, keyDown_keyOperand, skipIf_eq, skipIf_eq]
  cases s.keys.getLsbD ((s.getV x).toNat % 16) <;> exact ⟨rfl, rfl⟩

end Sys2Proof.Machine
end

section
/-! PROOF. The family of 43_display.md: drawing. A draw is a set of toggled pixels, reported in `VF` when one of them was on;
draws of disjoint sets one after the other are a draw of the union, so a sprite is built up pixel by pixel and row by row. -/

namespace Sys2Proof.Machine

/-- From `s` to `t` exactly the pixels of `B` toggle, and `VF` becomes 1 when one of them was on and is kept otherwise
(43_display.md R111). -/
structure Drawn (B : Fin 64 → Fin 32 → Bool) (s t : State) : Prop where
  pixels : ∀ p q, pixel t p q = (pixel s p q ^^ B p q)
  hit : (∃ p q, pixel s p q = true ∧ B p q = true) → t.getV vf = 1
  miss : (¬ ∃ p q, pixel s p q = true ∧ B p q = true) → t.getV vf = s.getV vf

namespace Drawn

variable {B B' : Fin 64 → Fin 32 → Bool} {s t u : State}

/-- Nothing is drawn. -/
theorem empty (h : ∀ p q, B p q = false) (s : State) : Drawn B s s where
  pixels p q := by rw [h, Bool.xor_false]
  hit := fun ⟨p, q, _, hB⟩ => absurd (h p q) (by simp [hB])
  miss _ := rfl

/-- The set may be written in another way. -/
theorem congr (h : Drawn B s t) (hB : ∀ p q, B' p q = B p q) : Drawn B' s t := by
  rwa [funext fun p => funext fun q => hB p q]

/-- Two disjoint draws one after the other are one draw: the second meets the pixels the first has left alone. -/
theorem trans (h : Drawn B s t) (h' : Drawn B' t u) (hdisj : ∀ p q, B' p q = true → B p q = false) :
    Drawn (fun p q => B p q || B' p q) s u := by
  have hsecond : ∀ p q, B' p q = true → pixel t p q = pixel s p q := fun p q hB' => by
    rw [h.pixels, hdisj p q hB', Bool.xor_false]
  refine ⟨fun p q => ?pixels, fun ⟨p, q, hon, hB⟩ => ?hit, fun hmiss => ?miss⟩
  case pixels =>
    rw [h'.pixels, h.pixels, Bool.xor_assoc]
    cases hB' : B' p q
    · rw [Bool.xor_false, Bool.or_false]
    · rw [hdisj p q hB', Bool.false_xor, Bool.false_or]
  case hit =>
    by_cases hhit' : ∃ p q, pixel t p q = true ∧ B' p q = true
    · exact h'.hit hhit'
    · obtain hB | hB' := Bool.or_eq_true_iff.mp hB
      · rw [h'.miss hhit', h.hit ⟨p, q, hon, hB⟩]
      · exact absurd ⟨p, q, (hsecond p q hB').trans hon, hB'⟩ hhit'
  case miss =>
    have hmiss' : ¬ ∃ p q, pixel t p q = true ∧ B' p q = true := fun ⟨p, q, hon, hB'⟩ =>
      hmiss ⟨p, q, (hsecond p q hB').symm.trans hon, by rw [hB', Bool.or_true]⟩
    rw [h'.miss hmiss', h.miss fun ⟨p, q, hon, hB⟩ => hmiss ⟨p, q, hon, by rw [hB, Bool.true_or]⟩]

end Drawn

/-- One sprite bit that is 1 draws its pixel. -/
theorem drawPixel_drawn (s : State) (x : Fin 64) (y : Fin 32) :
    Drawn (fun p q => decide (p = x ∧ q = y)) s (drawPixel s x y) := by
  unfold drawPixel
  split
  case isTrue hon =>
    refine ⟨fun p q => flipPixel_pixel .., fun _ => State.setV_getV_same s vf 1, fun hmiss => ?_⟩
    exact absurd ⟨x, y, hon, by simp⟩ hmiss
  case isFalse hoff =>
    refine ⟨fun p q => flipPixel_pixel .., fun ⟨p, q, hon, hB⟩ => ?_, fun _ => rfl⟩
    obtain ⟨rfl, rfl⟩ := of_decide_eq_true hB
    exact absurd hon hoff

/-- Columns `c` to `c + k - 1` of one sprite row. -/
def colsBit (b : Byte) (x0 : Nat) (y : Fin 32) (k c : Nat) (p : Fin 64) (q : Fin 32) : Bool :=
  decide (q = y) && decide (x0 + c ≤ p.val) && decide (p.val < x0 + c + k) && b.getLsbD (7 - (p.val - x0))

/-- The first column of a range is its own pixel. -/
theorem colsBit_succ (b : Byte) (x0 : Nat) (y : Fin 32) (k c : Nat) (h : x0 + c < 64) (p : Fin 64) (q : Fin 32) :
    colsBit b x0 y (k + 1) c p q =
      (b.getLsbD (7 - c) && decide (p = ⟨x0 + c, h⟩ ∧ q = y) || colsBit b x0 y k (c + 1) p q) := by
  unfold colsBit
  by_cases hp : p.val = x0 + c
  · have hp' : p = ⟨x0 + c, h⟩ := Fin.ext hp
    simp [hp', Bool.and_comm]
  · have hp' : p ≠ ⟨x0 + c, h⟩ := fun e => hp (congrArg Fin.val e)
    have hle : x0 + c ≤ p.val ↔ x0 + (c + 1) ≤ p.val := by omega
    have hlt : p.val < x0 + c + (k + 1) ↔ p.val < x0 + (c + 1) + k := by omega
    simp [hp', hle, hlt]

/-- The columns of one sprite row draw their bits inside the screen. -/
theorem drawCols_drawn (b : Byte) (x0 : Nat) (y : Fin 32) (k c : Nat) (s : State) :
    Drawn (colsBit b x0 y k c) s (drawCols b x0 y k c s) := by
  induction k generalizing c s with
  | zero => exact .empty (fun p q => by simp [colsBit]) s
  | succ k ih =>
    unfold drawCols
    split
    case isTrue hin =>
      have hfirst : Drawn (fun p q => b.getLsbD (7 - c) && decide (p = ⟨x0 + c, hin⟩ ∧ q = y)) s
          (if b.getLsbD (7 - c) then drawPixel s ⟨x0 + c, hin⟩ y else s) := by
        cases b.getLsbD (7 - c)
        · exact .empty (fun _ _ => rfl) s
        · exact drawPixel_drawn s ⟨x0 + c, hin⟩ y
      refine (hfirst.trans (ih (c + 1) _) fun p q hrest => ?_).congr (colsBit_succ b x0 y k c hin)
      have hp : p ≠ ⟨x0 + c, hin⟩ := fun e => by simp [colsBit, e] at hrest
      simp [hp]
    case isFalse hout =>
      exact .empty (fun p q => by simp [colsBit, show ¬ x0 + c ≤ p.val by omega]) s

/-- Rows `r` to `r + k - 1` of a sprite. -/
def rowsBit (s : State) (x0 y0 k r : Nat) (p : Fin 64) (q : Fin 32) : Bool :=
  decide (y0 + r ≤ q.val) && spriteBit s x0 y0 (r + k) p q

/-- The first row of a range is its own eight columns. -/
theorem rowsBit_succ (s : State) (x0 y0 k r : Nat) (h : y0 + r < 32) (p : Fin 64) (q : Fin 32) :
    rowsBit s x0 y0 (k + 1) r p q =
      (colsBit (memRead s (indexAddr s r)) x0 ⟨y0 + r, h⟩ 8 0 p q || rowsBit s x0 y0 k (r + 1) p q) := by
  unfold rowsBit colsBit spriteBit
  by_cases hq : q.val = y0 + r
  · have hq' : q = ⟨y0 + r, h⟩ := Fin.ext hq
    simp [hq', indexAddr]
  · have hq' : q ≠ ⟨y0 + r, h⟩ := fun e => hq (congrArg Fin.val e)
    have hle : y0 + r ≤ q.val ↔ y0 + (r + 1) ≤ q.val := by omega
    have hlt : q.val < y0 + (r + (k + 1)) ↔ q.val < y0 + (r + 1 + k) := by omega
    simp [hq', hle, hlt]

/-- The sprite is read from memory at `I`, which drawing leaves alone. -/
theorem spriteBit_of_onlyDraws {s t : State} (h : OnlyDraws s t) (x0 y0 n : Nat) (p : Fin 64) (q : Fin 32) :
    spriteBit t x0 y0 n p q = spriteBit s x0 y0 n p q := by
  rw [h.1]
  rfl

/-- The rows of a sprite draw their bits inside the screen. -/
theorem drawRows_drawn (x0 y0 k r : Nat) (s : State) :
    Drawn (rowsBit s x0 y0 k r) s (drawRows x0 y0 k r s) := by
  induction k generalizing r s with
  | zero =>
    refine .empty (fun p q => ?_) s
    by_cases hq : y0 + r ≤ q.val
    · simp [rowsBit, spriteBit, show ¬ q.val < y0 + r by omega]
    · simp [rowsBit, hq]
  | succ k ih =>
    unfold drawRows
    split
    case isTrue hin =>
      have hrest := ih (r + 1) (drawCols (memRead s (indexAddr s r)) x0 ⟨y0 + r, hin⟩ 8 0 s)
      have hsame : ∀ p q, rowsBit s x0 y0 k (r + 1) p q =
          rowsBit (drawCols (memRead s (indexAddr s r)) x0 ⟨y0 + r, hin⟩ 8 0 s) x0 y0 k (r + 1) p q := fun p q => by
        rw [rowsBit, rowsBit, spriteBit_of_onlyDraws (drawCols_frame ..)]
      refine ((drawCols_drawn ..).trans (hrest.congr hsame) fun p q hlater => ?_).congr (rowsBit_succ s x0 y0 k r hin)
      have hq : q ≠ ⟨y0 + r, hin⟩ := fun e => by simp [rowsBit, e] at hlater
      simp [colsBit, hq]
    case isFalse hout =>
      exact .empty (fun p q => by simp [rowsBit, show ¬ y0 + r ≤ q.val by omega]) s

/-- The state after DRW: `VF` cleared, then the sprite drawn from the origin the old registers give. -/
def drawn (s : State) (x y n : Nibble) : State :=
  drawRows (originX s x) (originY s y) n.toNat 0 (s.setV vf 0)

/-- DRW answers the drawn state (43_display.md R111). -/
@[simp] theorem exec_drw (s : State) (x y n : Nibble) : exec (.drw x y n) s = .next (drawn s x y n) := rfl

/-- DRW writes the framebuffer and `VF` alone (43_display.md R111). -/
theorem drawn_frame (s : State) (x y n : Nibble) : OnlyDraws s (drawn s x y n) :=
  (OnlyDraws.clear s).trans (drawRows_frame ..)

/-- DRW draws the sprite's bits, from a cleared `VF` (43_display.md R111). -/
theorem drawn_drawn (s : State) (x y n : Nibble) : Drawn (drwBit s x y n) (s.setV vf 0) (drawn s x y n) := by
  refine (drawRows_drawn _ _ _ _ _).congr fun p q => ?_
  rw [rowsBit, spriteBit_of_onlyDraws (OnlyDraws.clear s), Nat.add_zero, Nat.zero_add]
  by_cases hbelow : originY s y ≤ q.val
  · rw [decide_eq_true hbelow, Bool.true_and]
    rfl
  · have habove : ¬ (s.getV y).toNat % 32 ≤ q.val := hbelow
    simp [drwBit, spriteBit, hbelow, habove]

/-- Each pixel after DRW. -/
theorem drawn_pixel (s : State) (x y n : Nibble) (p : Fin 64) (q : Fin 32) :
    pixel (drawn s x y n) p q = (pixel s p q ^^ drwBit s x y n p q) :=
  (drawn_drawn s x y n).pixels p q

/-- `VF` after DRW is the collision, by the pixels before it. -/
theorem drawn_vf (s : State) (x y n : Nibble) :
    (∃ p q, pixel s p q = true ∧ drwBit s x y n p q = true) ∧ (drawn s x y n).getV vf = 1 ∨
    (¬ ∃ p q, pixel s p q = true ∧ drwBit s x y n p q = true) ∧ (drawn s x y n).getV vf = 0 := by
  by_cases hhit : ∃ p q, pixel s p q = true ∧ drwBit s x y n p q = true
  · exact .inl ⟨hhit, (drawn_drawn s x y n).hit hhit⟩
  · exact .inr ⟨hhit, ((drawn_drawn s x y n).miss hhit).trans (s.setV_getV_same vf 0)⟩

/-- `VF` is 1 after DRW exactly on a collision. -/
theorem drawn_vf_eq_one_iff (s : State) (x y n : Nibble) :
    (drawn s x y n).getV vf = 1 ↔ ∃ p q, pixel s p q = true ∧ drwBit s x y n p q = true := by
  obtain ⟨hhit, hvf⟩ | ⟨hmiss, hvf⟩ := drawn_vf s x y n
  · exact iff_of_true hvf hhit
  · exact iff_of_false (by rw [hvf]; decide) hmiss

/-- `VF` is a flag after DRW. -/
theorem drawn_vf_zero_or_one (s : State) (x y n : Nibble) :
    (drawn s x y n).getV vf = 0 ∨ (drawn s x y n).getV vf = 1 := by
  obtain ⟨-, hvf⟩ | ⟨-, hvf⟩ := drawn_vf s x y n
  · exact .inr hvf
  · exact .inl hvf

/-- Settles O48. -/
theorem drawXorsTheSpriteAndReportsCollision : Obligations.DrawXorsTheSpriteAndReportsCollision := fun s x y n =>
  ⟨_, exec_drw s x y n, drawn_pixel s x y n, drawn_vf_eq_one_iff s x y n, drawn_vf_zero_or_one s x y n,
    (drawn_frame s x y n).2⟩

/-- Framebuffers with the same pixels are the same. -/
theorem fb_ext {s t : State} (h : ∀ p q, pixel t p q = pixel s p q) : t.fb = s.fb := by
  refine Vector.ext fun q hq => BitVec.eq_of_getLsbD_eq fun p hp => ?_
  exact h ⟨p, hp⟩ ⟨q, hq⟩

/-- A second draw meets the same sprite at the same origin when neither coordinate is `VF`. -/
theorem drwBit_drawn {s : State} {x y : Nibble} (n : Nibble) (hx : x ≠ vf) (hy : y ≠ vf) (p : Fin 64) (q : Fin 32) :
    drwBit (drawn s x y n) x y n p q = drwBit s x y n p q := by
  have hframe := drawn_frame s x y n
  rw [drwBit, drwBit, spriteBit_of_onlyDraws hframe, hframe.2 x hx, hframe.2 y hy]

/-- Settles O49: two toggles restore a pixel, and the second draw meets the pixels the first has toggled. -/
theorem drawingTwiceRestores : Obligations.DrawingTwiceRestores := by
  intro s x y n hx hy
  refine ⟨_, _, exec_drw s x y n, exec_drw _ x y n, fb_ext fun p q => ?restored, ?collision⟩
  case restored =>
    rw [drawn_pixel, drawn_pixel, drwBit_drawn n hx hy, Bool.xor_assoc, Bool.xor_self, Bool.xor_false]
  case collision =>
    rw [drawn_vf_eq_one_iff]
    refine exists_congr fun p => exists_congr fun q => ?_
    rw [drwBit_drawn n hx hy]
    refine and_congr_left fun hbit => ?_
    rw [drawn_pixel, hbit, Bool.xor_true, Bool.not_eq_true']

/-! The snapshot (43_display.md R113) -/

/-- Bit `64*q + p` of rows put together is bit `p` of row `q`. -/
theorem testBit_rowsToNat (rows : List (BitVec 64)) (p q : Nat) (hp : p < 64) (hq : q < rows.length) :
    (rowsToNat rows).testBit (64 * q + p) = rows[q].getLsbD p := by
  induction rows generalizing q with
  | nil => exact absurd hq (Nat.not_lt_zero q)
  | cons r rows ih =>
    rw [rowsToNat, Nat.add_comm, Nat.testBit_two_pow_mul_add _ r.isLt]
    cases q with
    | zero => rw [Nat.mul_zero, Nat.zero_add, if_pos hp]; rfl
    | succ q =>
      have hrest : 64 * (q + 1) + p - 64 = 64 * q + p := by omega
      rw [if_neg (by omega), hrest, ih q (Nat.lt_of_succ_lt_succ hq)]
      rfl

/-- The snapshot is row-major. -/
theorem fbOut_getLsbD (s : State) (p : Fin 64) (q : Fin 32) : (fbOut s).getLsbD (64 * q.val + p.val) = pixel s p q := by
  have hin : 64 * q.val + p.val < 2048 := by omega
  rw [fbOut, BitVec.getLsbD_ofNat, decide_eq_true hin, Bool.true_and,
    testBit_rowsToNat _ _ _ p.isLt (by rw [Vector.length_toList]; exact q.isLt)]
  rfl

/-- Settles O50. -/
theorem framebufferReadIsRowMajor : Obligations.FramebufferReadIsRowMajor := fun s => ⟨rfl, rfl, fbOut_getLsbD s⟩

end Sys2Proof.Machine
end

section
/-! PROOF. `VF` as a flag (10_state.md R11). -/

namespace Sys2Proof.Machine

/-- A flag is 0 or 1 (10_state.md R11). -/
theorem flagByte_zero_or_one (c : Bool) : flagByte c = 0 ∨ flagByte c = 1 := by
  cases c
  · exact .inl rfl
  · exact .inr rfl

/-- Settles O20: the ALU instructions write 0 or a flag byte, DRW the collision; the others keep `VF` by their effect. -/
theorem flagRegisterIsZeroOrOne : Obligations.FlagRegisterIsZeroOrOne := by
  intro i s t h
  refine ⟨fun hflag => ?flag, fun ⟨x, y, hlogical⟩ => ?logical, fun hflag hdest => ?kept⟩
  case flag =>
    cases i
    case orReg | andReg | xorReg =>
      cases h
      exact .inl (writeWithFlag_getV_vf ..)
    case addReg | subReg | shrReg | subnReg | shlReg =>
      cases h
      rw [writeWithFlag_getV_vf]
      exact flagByte_zero_or_one _
    case drw x y n =>
      cases h
      exact drawn_vf_zero_or_one s x y n
    all_goals exact absurd hflag Bool.false_ne_true
  case logical =>
    obtain rfl | rfl | rfl := hlogical
    all_goals
      cases h
      exact writeWithFlag_getV_vf ..
  case kept => exact (exec_effect h).registers vf (by rw [writesReg, hflag, hdest]; rfl)

end Sys2Proof.Machine
end

section
/-! PROOF. Noninterference: what a Step cannot observe. Two states are alike under a tolerance, which says what their
addresses, sound timers and random inputs may differ by; alike states step to alike states. The upper address bits, the sound
timer and the random byte are three tolerances. -/

namespace Sys2Proof.Machine

/-- What two states may differ by. -/
structure Tolerance where
  /-- How `I`, `pc` and the stack entries are related. -/
  address : Word → Word → Prop
  /-- The sound timers are equal. -/
  sound : Prop
  /-- The random inputs are equal. -/
  random : Prop

/-- The address relation of a tolerance tells no location from another and is kept by the sums of the machine. -/
structure Tolerance.Valid (T : Tolerance) : Prop where
  refl : ∀ a, T.address a a
  low : ∀ {a b}, T.address a b → mask12 b.toNat = mask12 a.toNat
  add : ∀ {a b}, T.address a b → ∀ k, T.address (a + k) (b + k)

/-- The two states differ at most by the tolerance. -/
structure Alike (T : Tolerance) (s t : State) : Prop where
  registers : t.v = s.v
  index : T.address s.i t.i
  counter : T.address s.pc t.pc
  slots : ∀ j : Fin 16, T.address s.stack[j] t.stack[j]
  pointer : t.sp = s.sp
  delay : t.dt = s.dt
  sound : T.sound → t.st = s.st
  pixels : t.fb = s.fb
  keys : t.keys = s.keys
  latch : t.kw = s.kw
  fault : t.fault = s.fault
  memory : t.mem = s.mem
  random : T.random → t.rnd = s.rnd ∧ t.draws = s.draws

/-- Masking a sum needs the masked parts only (20_memory.md R31). -/
theorem mask12_add {a a' : Nat} (h : mask12 a' = mask12 a) (k : Nat) : mask12 (a' + k) = mask12 (a + k) := by
  simp only [mask12] at *
  rw [Nat.add_mod, h, ← Nat.add_mod]

/-- The update of `I` after a block is a 16-bit sum (42_index_memory.md R104, R105). -/
theorem bumpI_eq (s : State) (k : Nat) : bumpI s k = s.setI (s.i + BitVec.ofNat 16 k) := by
  rw [bumpI, BitVec.ofNat_add, BitVec.ofNat_toNat, BitVec.setWidth_eq]

namespace Alike

variable {T : Tolerance} {s t u w : State}

/-! What is read -/

theorem getV (h : Alike T s t) (x : Nibble) : t.getV x = s.getV x := by
  simp only [State.getV, h.registers]

theorem memRead (h : Alike T s t) (a : Nat) : memRead t a = memRead s a := memRead_congr h.memory a

theorem pixel (h : Alike T s t) (x : Fin 64) (y : Fin 32) : pixel t x y = pixel s x y := by
  simp only [Machine.pixel, h.pixels]

theorem keyDown (h : Alike T s t) (k : Nibble) : keyDown t k = keyDown s k := by
  simp only [Machine.keyDown, h.keys]

theorem firstKey (h : Alike T s t) : firstKey t = firstKey s := by
  simp only [Machine.firstKey, h.keys]

/-- A location of an access at `I`. -/
theorem effAddr (hT : T.Valid) (h : Alike T s t) (k : Nat) : effAddr t k = effAddr s k :=
  mask12_add (hT.low h.index) k

/-- A byte of an access at `I`. -/
theorem memRead_index (hT : T.Valid) (h : Alike T s t) (k : Nat) :
    Machine.memRead t (indexAddr t k) = Machine.memRead s (indexAddr s k) := by
  have hsame : Machine.memRead s (mask12 (indexAddr t k)) = Machine.memRead s (mask12 (indexAddr s k)) :=
    congrArg _ (h.effAddr hT k)
  rwa [memRead_mask12, memRead_mask12, ← h.memRead] at hsame

/-- The fetched word. -/
theorem fetchWord (hT : T.Valid) (h : Alike T s t) : fetchWord t = fetchWord s := by
  have hhigh : Machine.memRead t t.pc.toNat = Machine.memRead s s.pc.toNat := by
    rw [h.memRead, ← memRead_mask12, hT.low h.counter, memRead_mask12]
  have hlow : Machine.memRead t (t.pc.toNat + 1) = Machine.memRead s (s.pc.toNat + 1) := by
    rw [h.memRead, ← memRead_mask12, mask12_add (hT.low h.counter), memRead_mask12]
  rw [Machine.fetchWord, Machine.fetchWord, hhigh, hlow]

/-! What is written -/

theorem setV (h : Alike T s t) (x : Nibble) (b : Byte) : Alike T (s.setV x b) (t.setV x b) :=
  { h with registers := by rw [State.setV_v, State.setV_v, h.registers] }

theorem setI (h : Alike T s t) {a b : Word} (hab : T.address a b) : Alike T (s.setI a) (t.setI b) :=
  { h with index := hab }

theorem setPc (h : Alike T s t) {a b : Word} (hab : T.address a b) : Alike T (s.setPc a) (t.setPc b) :=
  { h with counter := hab }

theorem setStack (h : Alike T s t) {k l : Vector Word 16} (hkl : ∀ j : Fin 16, T.address k[j] l[j]) (n : Fin 17) :
    Alike T (s.setStack k n) (t.setStack l n) :=
  { h with
    slots := hkl
    pointer := rfl }

/-- The slots after one of them is written. -/
theorem slots_set (h : Alike T s t) {n : Nat} (hn : n < 16) {a b : Word} (hab : T.address a b) (j : Fin 16) :
    T.address (s.stack.set n a hn)[j] (t.stack.set n b hn)[j] := by
  simp only [Fin.getElem_fin, Vector.getElem_set]
  split
  · exact hab
  · exact h.slots j

theorem setDT (h : Alike T s t) (b : Byte) : Alike T (s.setDT b) (t.setDT b) := { h with delay := rfl }

theorem setST (h : Alike T s t) (b : Byte) : Alike T (s.setST b) (t.setST b) := { h with sound := fun _ => rfl }

theorem setFB (h : Alike T s t) (fb : Vector (BitVec 64) 32) : Alike T (s.setFB fb) (t.setFB fb) :=
  { h with pixels := rfl }

theorem setKW (h : Alike T s t) (k : KeyWait) : Alike T (s.setKW k) (t.setKW k) := { h with latch := rfl }

theorem setFault (h : Alike T s t) (f : BitVec 2) : Alike T (s.setFault f) (t.setFault f) := { h with fault := rfl }

theorem consumeRandom (h : Alike T s t) : Alike T (consumeRandom s) (consumeRandom t) :=
  { h with random := fun hr => ⟨rfl, congrArg (· + 1) (h.random hr).2⟩ }

/-- A store at the same location. -/
theorem memWrite (h : Alike T s t) {a a' : Nat} (ha : mask12 a' = mask12 a) (b : Byte) :
    Alike T (memWrite s a b) (memWrite t a' b) :=
  { h with memory := by simp only [Machine.memWrite, State.setMem_mem, h.memory, ha] }

theorem advancePc (hT : T.Valid) (h : Alike T s t) : Alike T (advancePc s) (advancePc t) :=
  h.setPc (hT.add h.counter 2)

theorem skipIf (hT : T.Valid) (h : Alike T s t) (c : Bool) : Alike T (skipIf c s) (skipIf c t) := by
  cases c
  · exact h
  · exact h.advancePc hT

theorem writeWithFlag (h : Alike T s t) (x : Nibble) (a f : Byte) :
    Alike T (writeWithFlag s x a f) (writeWithFlag t x a f) :=
  (h.setV x a).setV vf f

theorem bumpI (hT : T.Valid) (h : Alike T s t) (k : Nat) : Alike T (bumpI s k) (bumpI t k) := by
  rw [bumpI_eq, bumpI_eq]
  exact h.setI (hT.add h.index _)

theorem dumpRegs (hT : T.Valid) (h : Alike T s t) (k : Nat) : Alike T (dumpRegs k s) (dumpRegs k t) := by
  induction k with
  | zero => exact h
  | succ k ih =>
    rw [Machine.dumpRegs, Machine.dumpRegs, h.getV]
    exact ih.memWrite (h.effAddr hT k) _

theorem loadRegs (hT : T.Valid) (h : Alike T s t) (k : Nat) : Alike T (loadRegs k s) (loadRegs k t) := by
  induction k with
  | zero => exact h
  | succ k ih =>
    rw [Machine.loadRegs, Machine.loadRegs, h.memRead_index hT]
    exact ih.setV _ _

theorem drawPixel (h : Alike T s t) (x : Fin 64) (y : Fin 32) : Alike T (drawPixel s x y) (drawPixel t x y) := by
  have hflip {u w : State} (hu : Alike T u w) : Alike T (flipPixel u x y) (flipPixel w x y) := by
    rw [flipPixel, flipPixel, hu.pixels]
    exact hu.setFB _
  rw [Machine.drawPixel, Machine.drawPixel, h.pixel]
  cases Machine.pixel s x y
  · exact hflip h
  · exact hflip (h.setV vf 1)

theorem drawCols (h : Alike T s t) (b : Byte) (x0 : Nat) (y : Fin 32) (k c : Nat) :
    Alike T (drawCols b x0 y k c s) (drawCols b x0 y k c t) := by
  induction k generalizing c s t with
  | zero => exact h
  | succ k ih =>
    rw [Machine.drawCols, Machine.drawCols]
    split
    · refine ih ?_ _
      cases b.getLsbD (7 - c)
      · exact h
      · exact h.drawPixel _ y
    · exact h

theorem drawRows (hT : T.Valid) (h : Alike T s t) (x0 y0 k r : Nat) :
    Alike T (drawRows x0 y0 k r s) (drawRows x0 y0 k r t) := by
  induction k generalizing r s t with
  | zero => exact h
  | succ k ih =>
    rw [Machine.drawRows, Machine.drawRows, h.memRead_index hT]
    split
    · exact ih (h.drawCols _ _ _ _ _) _
    · exact h

end Alike

section Noninterference

variable {T : Tolerance} {s t s' t' : State}

/-- An instruction takes alike states to alike states; RND asks for equal random inputs. -/
theorem exec_alike (hT : T.Valid) (h : Alike T s t) {i : Instr} (hrandom : usesRandom i = true → T.random)
    (hs : exec i s = .next s') (ht : exec i t = .next t') : Alike T s' t' := by
  cases i
  case cls =>
    cases hs; cases ht
    exact h.setFB _
  case ret =>
    obtain hempty | hentry := sp_empty_or_entry s
    · cases eq_of_next hs (exec_ret_of_empty hempty)
      cases eq_of_next ht (exec_ret_of_empty (h.pointer.trans hempty))
      exact h.setFault 2
    · have hentry' : t.sp.val ≠ 0 := by rwa [h.pointer]
      cases eq_of_next hs (exec_ret_of_entry hentry)
      cases eq_of_next ht (exec_ret_of_entry hentry')
      simp only [h.pointer]
      exact (h.setStack h.slots _).setPc (h.slots ⟨s.sp.val - 1, by omega⟩)
  case call nnn =>
    obtain hroom | hfull := sp_cases s
    · have hroom' : t.sp.val < 16 := by rwa [h.pointer]
      cases eq_of_next hs (exec_call_of_room hroom nnn)
      cases eq_of_next ht (exec_call_of_room hroom' nnn)
      simp only [h.pointer]
      exact (h.setStack (h.slots_set hroom h.counter) _).setPc (hT.refl _)
    · cases eq_of_next hs (exec_call_of_full hfull nnn)
      cases eq_of_next ht (exec_call_of_full (h.pointer.trans hfull) nnn)
      exact h.setFault 1
  case sys | undef =>
    cases hs; cases ht
    exact h
  case jp nnn =>
    cases hs; cases ht
    exact h.setPc (hT.refl _)
  case jpV0 nnn =>
    cases hs; cases ht
    rw [offsetTarget, offsetTarget, h.getV]
    exact h.setPc (hT.refl _)
  case seImm | sneImm | seReg | sneReg =>
    cases hs; cases ht
    simp only [h.getV]
    exact h.skipIf hT _
  case skp | sknp =>
    cases hs; cases ht
    simp only [keyOperand, h.getV, h.keyDown]
    exact h.skipIf hT _
  case ldImm =>
    cases hs; cases ht
    exact h.setV _ _
  case addImm | ldReg =>
    cases hs; cases ht
    simp only [h.getV]
    exact h.setV _ _
  case orReg | andReg | xorReg | addReg | subReg | shrReg | subnReg | shlReg =>
    cases hs; cases ht
    simp only [h.getV]
    exact h.writeWithFlag _ _ _
  case rnd x nn =>
    cases hs; cases ht
    obtain ⟨hrnd, hdraws⟩ := h.random (hrandom rfl)
    rw [randomByte, randomByte, hrnd, hdraws]
    exact h.consumeRandom.setV _ _
  case ldI =>
    cases hs; cases ht
    exact h.setI (hT.refl _)
  case addI x =>
    cases hs; cases ht
    rw [h.getV, mask12_add (hT.low h.index)]
    exact h.setI (hT.refl _)
  case ldF x =>
    cases hs; cases ht
    rw [glyphAddr, glyphAddr, h.getV]
    exact h.setI (hT.refl _)
  case ldB x =>
    cases hs; cases ht
    rw [h.getV]
    exact ((h.memWrite (h.effAddr hT 0) _).memWrite (h.effAddr hT 1) _).memWrite (h.effAddr hT 2) _
  case ldMemVx x =>
    cases hs; cases ht
    exact (h.dumpRegs hT _).bumpI hT _
  case ldVxMem x =>
    cases hs; cases ht
    exact (h.loadRegs hT _).bumpI hT _
  case drw x y n =>
    cases hs; cases ht
    rw [originX, originX, originY, originY, h.getV, h.getV]
    exact (h.setV vf 0).drawRows hT _ _ _ _
  case ldVxDT x =>
    cases hs; cases ht
    rw [h.delay]
    exact h.setV _ _
  case ldDTVx x =>
    cases hs; cases ht
    rw [h.getV]
    exact h.setDT _
  case ldSTVx x =>
    cases hs; cases ht
    rw [h.getV]
    exact h.setST _
  case ldVxK x =>
    cases hscan : firstKey s with
    | none =>
      cases eq_of_next hs (exec_ldVxK_of_no_key hscan x)
      cases eq_of_next ht (exec_ldVxK_of_no_key (h.firstKey.trans hscan) x)
      have hrewind := hT.add h.counter (-2)
      rw [← sub_eq_add_neg, ← sub_eq_add_neg] at hrewind
      exact h.setPc hrewind
    | some k =>
      cases eq_of_next hs (exec_ldVxK_of_key hscan x)
      cases eq_of_next ht (exec_ldVxK_of_key (h.firstKey.trans hscan) x)
      exact (h.setV _ _).setKW _

/-- A Step takes alike states to alike states; one that fetches RND asks for equal random inputs. -/
theorem step_alike (hT : T.Valid) (h : Alike T s t)
    (hrandom : s.fault = 0 → s.kw = .idle → usesRandom (decodeWord (fetchWord s)) = true → T.random)
    (hs : step s = .next s') (ht : step t = .next t') : Alike T s' t' := by
  obtain ⟨hfault, hsame⟩ | ⟨hfault, k, d, hkw, hwait⟩ | ⟨hfault, hkw, hrun⟩ := step_cases hs
  · cases hsame
    cases eq_of_next ht (step_of_fault (by rwa [h.fault]))
    exact h
  · cases hwait
    cases eq_of_next ht (step_of_waiting (h.fault.trans hfault) (h.latch.trans hkw))
    rw [h.keyDown]
    split
    · exact h
    · exact h.setKW .idle
  · rw [step_of_running (h.fault.trans hfault) (h.latch.trans hkw), h.fetchWord hT] at ht
    exact exec_alike hT (h.advancePc hT) (hrandom hfault hkw) hrun.symm ht

end Noninterference

/-! The upper address bits (93_implementation_defined.md U19) -/

/-- Addresses may differ in bits 15:12. -/
def upperBits : Tolerance where
  address a b := mask12 b.toNat = mask12 a.toNat
  sound := True
  random := True

theorem upperBits_valid : upperBits.Valid where
  refl _ := rfl
  low h := h
  add {a b} h k := by
    have hsum : mask12 (b.toNat + k.toNat) = mask12 (a.toNat + k.toNat) := mask12_add h _
    simp only [upperBits, mask12, Config.memSize, BitVec.toNat_add] at *
    omega

/-- `SameLow` is this tolerance. -/
theorem sameLow_iff_alike {s t : State} : SameLow s t ↔ Alike upperBits s t :=
  ⟨fun h => { h with sound := fun _ => h.sound, random := fun _ => h.random },
   fun h => { h with sound := h.sound trivial, random := h.random trivial }⟩

/-- Settles O46. -/
theorem upperAddressBitsUnobservable : Obligations.UpperAddressBitsUnobservable := by
  intro s t s' hsame hs
  obtain ⟨t', ht⟩ := step_next t
  exact ⟨t', ht, sameLow_iff_alike.mpr
    (step_alike upperBits_valid (sameLow_iff_alike.mp hsame) (fun _ _ _ => trivial) hs ht)⟩

/-! The sound timer and the random input -/

/-- Nothing differs but, where they are not asked for, the sound timers and the random inputs. -/
def exceptFor (sound random : Prop) : Tolerance where
  address a b := b = a
  sound := sound
  random := random

theorem exceptFor_valid (sound random : Prop) : (exceptFor sound random).Valid where
  refl _ := rfl
  low h := congrArg (fun a : Word => mask12 a.toNat) h
  add h k := congrArg (· + k) h

/-- A state alike in everything else is the state with the other sound timer and random input. -/
theorem Alike.eq_of_exceptFor {sound random : Prop} {s t : State} (h : Alike (exceptFor sound random) s t) :
    t = (s.setST t.st).setRandom t.rnd t.draws := by
  have hstack : t.stack = s.stack := Vector.ext fun j hj => h.slots ⟨j, hj⟩
  obtain ⟨hv, hi, hpc, -, hsp, hdt, -, hfb, hkeys, hkw, hfault, hmem, -⟩ := h
  cases s
  cases t
  cases hv; cases hi; cases hpc; cases hstack; cases hsp; cases hdt; cases hfb; cases hkeys; cases hkw; cases hfault
  cases hmem
  rfl

/-- Settles O54: states that differ in `ST` alone step to such states. -/
theorem soundTimerAffectsNothing : Obligations.SoundTimerAffectsNothing := by
  intro s t b hs
  obtain ⟨t', ht'⟩ := step_next (s.setST b)
  have hstart : Alike (exceptFor False True) s (s.setST b) :=
    ⟨rfl, rfl, rfl, fun _ => rfl, rfl, rfl, False.elim, rfl, rfl, rfl, rfl, rfl, fun _ => ⟨rfl, rfl⟩⟩
  have hend := step_alike (exceptFor_valid _ _) hstart (fun _ _ _ => trivial) hs ht'
  obtain ⟨hrnd, hdraws⟩ := hend.random trivial
  refine ⟨t'.st, ?_⟩
  rw [ht', hend.eq_of_exceptFor, hrnd, hdraws]
  rfl

/-- States that differ in the random input alone are alike but for it. -/
theorem alike_setRandom (s : State) (o o' : Option Byte) (n n' : Nat) :
    Alike (exceptFor True False) (s.setRandom o n) (s.setRandom o' n') :=
  ⟨rfl, rfl, rfl, fun _ => rfl, rfl, rfl, fun _ => rfl, rfl, rfl, rfl, rfl, rfl, False.elim⟩

/-- A Step that runs no RND keeps the random input. -/
theorem step_keeps_random {s t : State}
    (hrandom : s.fault = 0 → s.kw = .idle → usesRandom (decodeWord (fetchWord s)) = false) (h : step s = .next t) :
    t.rnd = s.rnd ∧ t.draws = s.draws := by
  obtain ⟨-, hsame⟩ | ⟨hfault, hkw, heffect⟩ := step_effect h
  · rw [hsame]
    exact ⟨rfl, rfl⟩
  · exact heffect.random (hrandom hfault hkw)

/-- Settles O40: an instruction that is no RND neither reads nor writes the random input, and what the driver's Step leaves of
it is the counter. -/
theorem onlyRndReadsTheRandomByte : Obligations.OnlyRndReadsTheRandomByte := by
  refine ⟨fun i s b n hi => ?instruction, fun s b c hcond => ?driver⟩
  case instruction =>
    obtain ⟨t, ht⟩ := exec_next i s
    obtain ⟨u, hu⟩ := exec_next i (s.setRandom b n)
    have hno : usesRandom i = true → False := fun hyes => Bool.false_ne_true (hi.symm.trans hyes)
    have halike := exec_alike (exceptFor_valid _ _) (alike_setRandom s s.rnd b s.draws n) hno ht hu
    obtain ⟨hrnd, hdraws⟩ := (exec_effect hu).random hi
    refine ⟨t, ht, ?_⟩
    rw [hu, halike.eq_of_exceptFor, halike.sound trivial, hrnd, hdraws]
    rfl
  case driver =>
    have hno : s.fault = 0 → s.kw = .idle → usesRandom (decodeWord (fetchWord s)) = false := fun hfault hkw => by
      obtain hi | hne | hne := hcond
      · exact hi
      · exact absurd hfault hne
      · exact absurd hkw hne
    have hno' : s.fault = 0 → s.kw = .idle → usesRandom (decodeWord (fetchWord s)) = true → False :=
      fun hfault hkw hyes => Bool.false_ne_true ((hno hfault hkw).symm.trans hyes)
    obtain ⟨t, ht⟩ := step_next (s.setRandom (some b) s.draws)
    obtain ⟨u, hu⟩ := step_next (s.setRandom (some c) s.draws)
    have hstart := alike_setRandom s (some b) (some c) s.draws s.draws
    have halike := step_alike (exceptFor_valid _ _) hstart hno' ht hu
    obtain ⟨-, htdraws⟩ := step_keeps_random (s := s.setRandom (some b) s.draws) hno ht
    obtain ⟨-, hudraws⟩ := step_keeps_random (s := s.setRandom (some c) s.draws) hno hu
    rw [drive_step ht, drive_step hu, halike.eq_of_exceptFor, halike.sound trivial, htdraws, hudraws]
    rfl

end Sys2Proof.Machine
end

section
/-! PROOF. The driver's operations after a fault (60_exceptions.md R134) and Reset (70_reset_and_hazards.md R150). -/

namespace Sys2Proof.Machine

@[simp] theorem drive_reset (s : State) : drive .reset s = .next (opReset s) := rfl

@[simp] theorem drive_fbRead (s : State) : drive .fbRead s = .next s := rfl

/-- A Load writes memory alone (70_reset_and_hazards.md R155). -/
theorem opLoad_frame (bytes : List Byte) (s : State) : opLoad bytes s = s.setMem (opLoad bytes s).mem := by
  unfold opLoad
  split
  · rfl
  · exact storeBytes_frame ..

/-- Storing bytes does not see the fault register. -/
theorem storeBytes_setFault (bs : List Byte) (a : Nat) (s : State) (f : BitVec 2) :
    storeBytes bs a (s.setFault f) = (storeBytes bs a s).setFault f := by
  induction bs generalizing a s with
  | nil => rfl
  | cons b bs ih => exact ih (a + 1) (memWrite s a b)

/-- A Load does not see the fault register. -/
theorem opLoad_setFault (bytes : List Byte) (s : State) (f : BitVec 2) :
    opLoad bytes (s.setFault f) = (opLoad bytes s).setFault f := by
  unfold opLoad
  split
  · rfl
  · exact storeBytes_setFault ..

/-- No operation but Reset clears a fault. -/
theorem drive_keeps_fault {op : DriverOp} {s t : State} (hfault : s.fault ≠ 0) (h : drive op s = .next t)
    (hop : op ≠ .reset) : t.fault = s.fault := by
  cases op with
  | reset => exact absurd rfl hop
  | load bytes =>
    rw [← eq_of_next (drive_load bytes s) h, opLoad_frame]
    rfl
  | step b =>
    cases eq_of_next h (drive_step (step_of_fault (s := s.setRandom (some b) s.draws) hfault))
    rfl
  | tick | keyWrite _ | fbRead =>
    cases h
    rfl

/-- Settles O13: a Step is inert, and the four other operations neither see the fault register nor write it. -/
theorem faultStopsStepsUntilReset : Obligations.FaultStopsStepsUntilReset := by
  intro s hfault
  refine ⟨step_of_fault hfault, fun op t h hop => drive_keeps_fault hfault h hop,
    fun bytes => ⟨_, drive_load bytes s, ?load⟩, ⟨_, drive_tick s, rfl⟩, fun k => ⟨_, drive_keyWrite k s, rfl⟩,
    drive_fbRead s, rfl, ⟨_, drive_reset s, rfl⟩⟩
  case load => rw [drive_load, opLoad_setFault]

/-- The glyph table stands at GLYPH_BASE in unlisted memory (10_state.md R26). -/
theorem unlisted_glyph (j : Nat) (h : j < Config.glyphData.length) :
    Memory.unlisted (Config.glyphBase + j) = Config.glyphData[j] := by
  rw [Memory.unlisted, if_pos (Nat.le_add_right _ _), Nat.add_sub_cancel_left, List.getD_eq_getElem _ _ h]

/-- Unlisted memory is 0 outside the glyph table's 80 bytes (10_state.md R26). -/
theorem unlisted_outside {a : Nat} (h : a < Config.glyphBase ∨ Config.glyphBase + 80 ≤ a) : Memory.unlisted a = 0 := by
  have hlen : Config.glyphData.length = 80 := rfl
  rw [Memory.unlisted]
  obtain hbelow | habove := h
  · rw [if_neg (Nat.not_le.mpr hbelow)]
  · rw [if_pos (by omega), List.getD_eq_default _ _ (by omega)]

/-- Memory after Reset reads as unlisted (10_state.md R26). -/
theorem memRead_opReset (s : State) {a : Nat} (h : a < Config.memSize) :
    memRead (opReset s) a = Memory.unlisted a := by
  change Memory.get [] (mask12 a) = _
  rw [mask12_of_lt h, Memory.get]

/-- Settles O58. -/
theorem resetValues : Obligations.ResetValues := by
  intro s
  refine ⟨_, drive_reset s, rfl, fun j hj => ?glyphs, fun a ha hout => ?zeros, fun r => ?registers, rfl, rfl,
    fun j => ?stack, rfl, rfl, fun p q => ?pixels, rfl, rfl, rfl⟩
  case glyphs =>
    have hin : Config.glyphBase + j < Config.memSize := by
      have hlen : Config.glyphData.length = 80 := rfl
      have hbase : Config.glyphBase = 80 := rfl
      have hsize : Config.memSize = 4096 := rfl
      omega
    rw [memRead_opReset s hin, unlisted_glyph j hj]
  case zeros => rw [memRead_opReset s ha, unlisted_outside hout]
  case registers => exact Vector.getElem_replicate ..
  case stack => exact Vector.getElem_replicate ..
  case pixels =>
    have hrow : (opReset s).fb[q.val] = 0 := Vector.getElem_replicate ..
    rw [pixel, hrow]
    exact BitVec.getLsbD_zero

end Sys2Proof.Machine
end

section
/-! PROOF. The port binding (00_scope.md R4). -/

namespace Sys2Proof.Machine

/-- A cycle with one request is its operation, when the stream is long enough. -/
theorem portCycle_of_one {p : PortsIn} {op : DriverOp} (h : requests p = [op]) (hlong : streamShort p = false)
    (s : State) : portCycle p s = drive op s := by
  rw [portCycle, h]
  simp [hlong]

/-- A stream is too short when a Load is requested and it ends early. -/
theorem streamShort_of_no_load {p : PortsIn} (h : p.loadReq = false) : streamShort p = false := by
  rw [streamShort, h, Bool.false_and]

/-- Settles O59: the requests of a cycle are listed port by port, and the cycle is by how many there are. -/
theorem portsIssueOneOperation : Obligations.PortsIssueOneOperation := by
  intro p s
  refine ⟨fun hnone => ?none, fun h1 h2 h3 h4 h5 => ?reset, fun h1 h2 h3 h4 h5 => ?step, fun h1 h2 h3 h4 h5 => ?tick,
    fun h1 h2 h3 h4 h5 => ?keyWrite, fun h1 h2 h3 h4 h5 => ⟨fun hlong => ?load, fun hshort => ?short⟩, fun htwo => ?two⟩
  case none => rw [portCycle, hnone]
  case reset | step | tick | keyWrite =>
    exact portCycle_of_one (by simp [requests, h1, h2, h3, h4, h5]) (streamShort_of_no_load h5) s
  case load =>
    exact portCycle_of_one (by simp [requests, h1, h2, h3, h4, h5]) (by simp [streamShort, hlong]) s
  case short =>
    have hone : requests p = [.load (p.loadData.take p.loadLen.toNat)] := by simp [requests, h1, h2, h3, h4, h5]
    have hyes : streamShort p = true := by simp [streamShort, h5, hshort]
    rw [portCycle, hone]
    simp [hyes]
  case two =>
    unfold portCycle
    split
    case h_1 hnone => simp [hnone] at htwo
    case h_2 hone => simp [hone] at htwo
    case h_3 => rfl

/-- The `waiting` port by the latch. -/
theorem waitingOut_iff (s : State) : waitingOut s = true ↔ ∃ k d, s.kw = .waitingForRelease k d := by
  rw [waitingOut, bne_iff_ne]
  cases s.kw <;> simp

/-- Settles O60. -/
theorem portOutputsShowTheState : Obligations.PortOutputsShowTheState := by
  intro p s
  refine ⟨rfl, waitingOut_iff s, fbOut_getLsbD s, fun hno => ?none, fun hyes hlong => ?load⟩
  case none =>
    change (p.loadReq && _) = false
    rw [hno, Bool.false_and]
  case load =>
    change (p.loadReq && oversized _) = true ↔ _
    rw [hyes, Bool.true_and, oversized_iff, List.length_take, Nat.min_eq_left hlong]

end Sys2Proof.Machine
end
